-- ==== Sys2Proof/Word.lean ====
section
/-! DEFINITION. The word types of the CORE and their plainest arithmetic (`spec/00_scope.md` R8, R9, R11). -/

namespace Sys2Proof

/-- An 8-bit unsigned quantity: a memory cell, a V register, a timer (R11). -/
abbrev Byte := BitVec 8

/-- A 16-bit unsigned quantity: an opcode, I, pc, a stack entry (R11). -/
abbrev Word := BitVec 16

/-- The 12-bit NNN field of an opcode (R71). -/
abbrev Addr12 := BitVec 12

/-- A 4-bit field of an opcode (R71). -/
abbrev Nibble := BitVec 4

/-- The index of one of the sixteen registers V0-VF, or of one of the sixteen keys (R21, R32). -/
abbrev Reg := Fin 16

/-- The index of VF, the flag register (R22). -/
abbrev regF : Reg := 15

end Sys2Proof
end

