-- ==== Sys2Proof/Syntax.lean ====
section
/-! DEFINITION. The 34 instructions of the CORE, one constructor for each row of `spec/opcode_table.json`
(`spec/30_encoding.md` R74, R92). -/

namespace Sys2Proof

/-- The instructions, in the order of the opcode table. `x` and `y` are the X and Y fields, `kk` the KK field,
`nnn` the NNN field, `n` the number of sprite rows (R71, R73). -/
inductive Instr where
  /-- 00E0 `CLS` (R170). -/
  | cls
  /-- 00EE `RET` (R101). -/
  | ret
  /-- 1NNN `JP addr` (R102). -/
  | jp (nnn : Addr12)
  /-- 2NNN `CALL addr` (R103). -/
  | call (nnn : Addr12)
  /-- 3XKK `SE Vx, byte` (R104). -/
  | seByte (x : Reg) (kk : Byte)
  /-- 4XKK `SNE Vx, byte` (R105). -/
  | sneByte (x : Reg) (kk : Byte)
  /-- 5XY0 `SE Vx, Vy` (R106). -/
  | seReg (x y : Reg)
  /-- 6XKK `LD Vx, byte` (R121). -/
  | ldByte (x : Reg) (kk : Byte)
  /-- 7XKK `ADD Vx, byte` (R122). -/
  | addByte (x : Reg) (kk : Byte)
  /-- 8XY0 `LD Vx, Vy` (R123). -/
  | ldReg (x y : Reg)
  /-- 8XY1 `OR Vx, Vy` (R124). -/
  | orReg (x y : Reg)
  /-- 8XY2 `AND Vx, Vy` (R125). -/
  | andReg (x y : Reg)
  /-- 8XY3 `XOR Vx, Vy` (R126). -/
  | xorReg (x y : Reg)
  /-- 8XY4 `ADD Vx, Vy` (R128). -/
  | addReg (x y : Reg)
  /-- 8XY5 `SUB Vx, Vy` (R129). -/
  | subReg (x y : Reg)
  /-- 8XY6 `SHR Vx`; the Y field is kept, so that the opcode is not lost, and never used (R130, R82). -/
  | shr (x y : Reg)
  /-- 8XY7 `SUBN Vx, Vy` (R131). -/
  | subnReg (x y : Reg)
  /-- 8XYE `SHL Vx`; the Y field is kept and never used (R132, R82). -/
  | shl (x y : Reg)
  /-- 9XY0 `SNE Vx, Vy` (R107). -/
  | sneReg (x y : Reg)
  /-- ANNN `LD I, addr` (R151). -/
  | ldI (nnn : Addr12)
  /-- BNNN `JP V0, addr` (R108). -/
  | jpV0 (nnn : Addr12)
  /-- CXKK `RND Vx, byte` (R133). -/
  | rnd (x : Reg) (kk : Byte)
  /-- DXYN `DRW Vx, Vy, nibble`: `n` is the count of sprite rows (R173). -/
  | drw (x y : Reg) (n : Nat)
  /-- EX9E `SKP Vx` (R192). -/
  | skp (x : Reg)
  /-- EXA1 `SKNP Vx` (R193). -/
  | sknp (x : Reg)
  /-- FX07 `LD Vx, DT` (R194). -/
  | ldVxDT (x : Reg)
  /-- FX0A `LD Vx, K` (R195). -/
  | ldVxK (x : Reg)
  /-- FX15 `LD DT, Vx` (R196). -/
  | ldDTVx (x : Reg)
  /-- FX18 `LD ST, Vx` (R197). -/
  | ldSTVx (x : Reg)
  /-- FX1E `ADD I, Vx` (R152). -/
  | addI (x : Reg)
  /-- FX29 `LD F, Vx` (R153). -/
  | ldF (x : Reg)
  /-- FX33 `LD B, Vx` (R154). -/
  | ldB (x : Reg)
  /-- FX55 `LD [I], Vx` (R155). -/
  | store (x : Reg)
  /-- FX65 `LD Vx, [I]` (R156). -/
  | load (x : Reg)
  deriving DecidableEq, Repr

/-- The row of `spec/opcode_table.json` an instruction stands for, by the table's own mnemonic. -/
def Instr.mnemonic : Instr → String
  | .cls => "CLS"
  | .ret => "RET"
  | .jp _ => "JP_addr"
  | .call _ => "CALL_addr"
  | .seByte _ _ => "SE_Vx__byte"
  | .sneByte _ _ => "SNE_Vx__byte"
  | .seReg _ _ => "SE_Vx__Vy"
  | .ldByte _ _ => "LD_Vx__byte"
  | .addByte _ _ => "ADD_Vx__byte"
  | .ldReg _ _ => "LD_Vx__Vy"
  | .orReg _ _ => "OR_Vx__Vy"
  | .andReg _ _ => "AND_Vx__Vy"
  | .xorReg _ _ => "XOR_Vx__Vy"
  | .addReg _ _ => "ADD_Vx__Vy"
  | .subReg _ _ => "SUB_Vx__Vy"
  | .shr _ _ => "SHR_Vx"
  | .subnReg _ _ => "SUBN_Vx__Vy"
  | .shl _ _ => "SHL_Vx"
  | .sneReg _ _ => "SNE_Vx__Vy"
  | .ldI _ => "LD_I__addr"
  | .jpV0 _ => "JP_V0__addr"
  | .rnd _ _ => "RND_Vx__byte"
  | .drw _ _ _ => "DRW_Vx__Vy__nibble"
  | .skp _ => "SKP_Vx"
  | .sknp _ => "SKNP_Vx"
  | .ldVxDT _ => "LD_Vx__DT"
  | .ldVxK _ => "LD_Vx__K"
  | .ldDTVx _ => "LD_DT__Vx"
  | .ldSTVx _ => "LD_ST__Vx"
  | .addI _ => "ADD_I__Vx"
  | .ldF _ => "LD_F__Vx"
  | .ldB _ => "LD_B__Vx"
  | .store _ => "LD__I___Vx"
  | .load _ => "LD_Vx___I"

end Sys2Proof
end

