-- ==== Sys2Proof/Decode.lean ====
section
/-! DEFINITION. Fields of the opcode, the decoder, the encoder and the opcode table
(`spec/30_encoding.md` R70-R84). -/

namespace Sys2Proof

/-! ### Fields (R71) -/

/-- The group, bits 15:12. -/
def opField (w : Word) : Nibble := w.extractLsb' 12 4

/-- The X field, bits 11:8. -/
def xNibble (w : Word) : Nibble := w.extractLsb' 8 4

/-- The Y field, bits 7:4. -/
def yNibble (w : Word) : Nibble := w.extractLsb' 4 4

/-- The N field, bits 3:0. -/
def nField (w : Word) : Nibble := w.extractLsb' 0 4

/-- The KK field, bits 7:0. -/
def kkField (w : Word) : Byte := w.extractLsb' 0 8

/-- The NNN field, bits 11:0. -/
def nnnField (w : Word) : Addr12 := w.extractLsb' 0 12

/-- A 4-bit field as a register index. -/
def regOfNibble (b : Nibble) : Reg := ⟨b.toNat, b.isLt⟩

/-- A register index as a 4-bit field. -/
def nibbleOfReg (r : Reg) : Nibble := BitVec.ofNat 4 r.val

/-- The register the X field names. -/
def xField (w : Word) : Reg := regOfNibble (xNibble w)

/-- The register the Y field names. -/
def yField (w : Word) : Reg := regOfNibble (yNibble w)

/-! ### The decoder (R75) -/

/-- Group 8, sub-dispatch on N (R75, R80). -/
def decodeGroup8 (x y : Reg) (n : Nibble) : Option Instr :=
  match n with
  | 0x0#4 => some (.ldReg x y)
  | 0x1#4 => some (.orReg x y)
  | 0x2#4 => some (.andReg x y)
  | 0x3#4 => some (.xorReg x y)
  | 0x4#4 => some (.addReg x y)
  | 0x5#4 => some (.subReg x y)
  | 0x6#4 => some (.shr x y)
  | 0x7#4 => some (.subnReg x y)
  | 0xE#4 => some (.shl x y)
  | _ => none

/-- Group E, sub-dispatch on KK (R75, R81). -/
def decodeGroupE (x : Reg) (kk : Byte) : Option Instr :=
  match kk with
  | 0x9E#8 => some (.skp x)
  | 0xA1#8 => some (.sknp x)
  | _ => none

/-- Group F, sub-dispatch on KK (R75, R81). -/
def decodeGroupF (x : Reg) (kk : Byte) : Option Instr :=
  match kk with
  | 0x07#8 => some (.ldVxDT x)
  | 0x0A#8 => some (.ldVxK x)
  | 0x15#8 => some (.ldDTVx x)
  | 0x18#8 => some (.ldSTVx x)
  | 0x1E#8 => some (.addI x)
  | 0x29#8 => some (.ldF x)
  | 0x33#8 => some (.ldB x)
  | 0x55#8 => some (.store x)
  | 0x65#8 => some (.load x)
  | _ => none

/-- One of the 34 instructions, or `none` for the spec's `Unknown` (R75); nothing but the 16 bits counts (R84). -/
def decodeWord (w : Word) : Option Instr :=
  match opField w with
  | 0x0#4 => if w = 0x00E0#16 then some .cls else if w = 0x00EE#16 then some .ret else none
  | 0x1#4 => some (.jp (nnnField w))
  | 0x2#4 => some (.call (nnnField w))
  | 0x3#4 => some (.seByte (xField w) (kkField w))
  | 0x4#4 => some (.sneByte (xField w) (kkField w))
  | 0x5#4 => if nField w = 0x0#4 then some (.seReg (xField w) (yField w)) else none
  | 0x6#4 => some (.ldByte (xField w) (kkField w))
  | 0x7#4 => some (.addByte (xField w) (kkField w))
  | 0x8#4 => decodeGroup8 (xField w) (yField w) (nField w)
  | 0x9#4 => if nField w = 0x0#4 then some (.sneReg (xField w) (yField w)) else none
  | 0xA#4 => some (.ldI (nnnField w))
  | 0xB#4 => some (.jpV0 (nnnField w))
  | 0xC#4 => some (.rnd (xField w) (kkField w))
  | 0xD#4 => some (.drw (xField w) (yField w) (nField w).toNat)
  | 0xE#4 => decodeGroupE (xField w) (kkField w)
  | _ => decodeGroupF (xField w) (kkField w)

/-- The opcode of two consecutive bytes, big-endian (`spec/20_memory.md` R54). -/
def wordOfBytes (hi lo : Byte) : Word := hi ++ lo

/-- The two bytes of an opcode, in the order memory holds them (R54). -/
def bytesOfWord (w : Word) : List Byte := [w.extractLsb' 8 8, w.extractLsb' 0 8]

/-- Why a run of bytes is no instruction. -/
inductive DecodeError where
  /-- Fewer than the two bytes that every instruction has (R70). -/
  | truncated
  /-- The word matches no row of the opcode table (R76). -/
  | unknownOpcode (opcode : Word)
  deriving DecidableEq, Repr

/-- Decode the first instruction of a run of bytes: every instruction consumes exactly two (R70). -/
def decode : List Byte → Except DecodeError (Instr × List Byte)
  | hi :: lo :: rest =>
    match decodeWord (wordOfBytes hi lo) with
    | some i => .ok (i, rest)
    | none => .error (.unknownOpcode (wordOfBytes hi lo))
  | _ => .error .truncated

/-! ### The encoder (R72, R74, R92) -/

/-- Format `NNN`. -/
def encodeNNN (op : Nibble) (nnn : Addr12) : Word := op ++ nnn

/-- Formats `XKK` and `X`. -/
def encodeXKK (op : Nibble) (x : Reg) (kk : Byte) : Word := op ++ (nibbleOfReg x ++ kk)

/-- Formats `XY` and `XYN`. -/
def encodeXYN (op : Nibble) (x y : Reg) (n : Nibble) : Word := op ++ (nibbleOfReg x ++ (nibbleOfReg y ++ n))

/-- The opcode of an instruction. -/
def encodeWord : Instr → Word
  | .cls => 0x00E0#16
  | .ret => 0x00EE#16
  | .jp nnn => encodeNNN 0x1#4 nnn
  | .call nnn => encodeNNN 0x2#4 nnn
  | .seByte x kk => encodeXKK 0x3#4 x kk
  | .sneByte x kk => encodeXKK 0x4#4 x kk
  | .seReg x y => encodeXYN 0x5#4 x y 0x0#4
  | .ldByte x kk => encodeXKK 0x6#4 x kk
  | .addByte x kk => encodeXKK 0x7#4 x kk
  | .ldReg x y => encodeXYN 0x8#4 x y 0x0#4
  | .orReg x y => encodeXYN 0x8#4 x y 0x1#4
  | .andReg x y => encodeXYN 0x8#4 x y 0x2#4
  | .xorReg x y => encodeXYN 0x8#4 x y 0x3#4
  | .addReg x y => encodeXYN 0x8#4 x y 0x4#4
  | .subReg x y => encodeXYN 0x8#4 x y 0x5#4
  | .shr x y => encodeXYN 0x8#4 x y 0x6#4
  | .subnReg x y => encodeXYN 0x8#4 x y 0x7#4
  | .shl x y => encodeXYN 0x8#4 x y 0xE#4
  | .sneReg x y => encodeXYN 0x9#4 x y 0x0#4
  | .ldI nnn => encodeNNN 0xA#4 nnn
  | .jpV0 nnn => encodeNNN 0xB#4 nnn
  | .rnd x kk => encodeXKK 0xC#4 x kk
  | .drw x y n => encodeXYN 0xD#4 x y (BitVec.ofNat 4 n)
  | .skp x => encodeXKK 0xE#4 x 0x9E#8
  | .sknp x => encodeXKK 0xE#4 x 0xA1#8
  | .ldVxDT x => encodeXKK 0xF#4 x 0x07#8
  | .ldVxK x => encodeXKK 0xF#4 x 0x0A#8
  | .ldDTVx x => encodeXKK 0xF#4 x 0x15#8
  | .ldSTVx x => encodeXKK 0xF#4 x 0x18#8
  | .addI x => encodeXKK 0xF#4 x 0x1E#8
  | .ldF x => encodeXKK 0xF#4 x 0x29#8
  | .ldB x => encodeXKK 0xF#4 x 0x33#8
  | .store x => encodeXKK 0xF#4 x 0x55#8
  | .load x => encodeXKK 0xF#4 x 0x65#8

/-- The bytes of an instruction as memory holds them (R54). -/
def encode (i : Instr) : List Byte := bytesOfWord (encodeWord i)

/-! ### The opcode table as masks and matches (R74) -/

/-- A row of the opcode table: a word `w` is this instruction when `w AND mask = pattern` (R74). -/
structure OpcodeRow where
  mnemonic : String
  pattern : Word
  mask : Word
  deriving DecidableEq, Repr

/-- The rows of groups 0 to 7 (R74). -/
def opcodeRows0to7 : List OpcodeRow :=
  [⟨"CLS", 0x00E0, 0xFFFF⟩, ⟨"RET", 0x00EE, 0xFFFF⟩, ⟨"JP_addr", 0x1000, 0xF000⟩, ⟨"CALL_addr", 0x2000, 0xF000⟩,
   ⟨"SE_Vx__byte", 0x3000, 0xF000⟩, ⟨"SNE_Vx__byte", 0x4000, 0xF000⟩, ⟨"SE_Vx__Vy", 0x5000, 0xF00F⟩,
   ⟨"LD_Vx__byte", 0x6000, 0xF000⟩, ⟨"ADD_Vx__byte", 0x7000, 0xF000⟩]

/-- The rows of group 8 (R74). -/
def opcodeRows8 : List OpcodeRow :=
  [⟨"LD_Vx__Vy", 0x8000, 0xF00F⟩, ⟨"OR_Vx__Vy", 0x8001, 0xF00F⟩, ⟨"AND_Vx__Vy", 0x8002, 0xF00F⟩,
   ⟨"XOR_Vx__Vy", 0x8003, 0xF00F⟩, ⟨"ADD_Vx__Vy", 0x8004, 0xF00F⟩, ⟨"SUB_Vx__Vy", 0x8005, 0xF00F⟩,
   ⟨"SHR_Vx", 0x8006, 0xF00F⟩, ⟨"SUBN_Vx__Vy", 0x8007, 0xF00F⟩, ⟨"SHL_Vx", 0x800E, 0xF00F⟩]

/-- The rows of groups 9 to E (R74). -/
def opcodeRows9toE : List OpcodeRow :=
  [⟨"SNE_Vx__Vy", 0x9000, 0xF00F⟩, ⟨"LD_I__addr", 0xA000, 0xF000⟩, ⟨"JP_V0__addr", 0xB000, 0xF000⟩,
   ⟨"RND_Vx__byte", 0xC000, 0xF000⟩, ⟨"DRW_Vx__Vy__nibble", 0xD000, 0xF000⟩, ⟨"SKP_Vx", 0xE09E, 0xF0FF⟩,
   ⟨"SKNP_Vx", 0xE0A1, 0xF0FF⟩]

/-- The rows of group F (R74). -/
def opcodeRowsF : List OpcodeRow :=
  [⟨"LD_Vx__DT", 0xF007, 0xF0FF⟩, ⟨"LD_Vx__K", 0xF00A, 0xF0FF⟩, ⟨"LD_DT__Vx", 0xF015, 0xF0FF⟩,
   ⟨"LD_ST__Vx", 0xF018, 0xF0FF⟩, ⟨"ADD_I__Vx", 0xF01E, 0xF0FF⟩, ⟨"LD_F__Vx", 0xF029, 0xF0FF⟩,
   ⟨"LD_B__Vx", 0xF033, 0xF0FF⟩, ⟨"LD__I___Vx", 0xF055, 0xF0FF⟩, ⟨"LD_Vx___I", 0xF065, 0xF0FF⟩]

/-- The 34 rows of R74, in the document's order. -/
def opcodeTable : List OpcodeRow := opcodeRows0to7 ++ opcodeRows8 ++ opcodeRows9toE ++ opcodeRowsF

/-- The word is this row's instruction (R74). -/
def OpcodeRow.matchesWord (r : OpcodeRow) (w : Word) : Bool := w &&& r.mask == r.pattern

/-- What the decoder reads from the low `nbits` bits of `w`, laid out as the hardware stores an opcode: the high byte
first (R54, R70). -/
def decodeTableWord (nbits w : Nat) : Option Instr :=
  match decode (bytesOfWord (BitVec.ofNat 16 (w % 2 ^ nbits))) with
  | .ok (i, _) => some i
  | .error _ => none

end Sys2Proof
end

