-- ==== Sys2Proof/Config.lean ====
section
/-! DEFINITION. The parameters the spec leaves named (`spec/00_scope.md` R5) and its one free value, the random
byte. The parameters are plain data: `State` carries them, so that a statement about every state holds for every
setting of them. Their defaults stand in `Machine/Defaults.lean`. -/

namespace Sys2Proof

/-- `FLAG_ORDER`: when the flag-writing ALU instructions write VF (`spec/41_alu.md` R127). -/
inductive FlagOrder where
  /-- The statements run in the order the opcode table writes them. -/
  | tableOrder
  /-- Every read first, then V[X], then VF. -/
  | flagLast
  deriving DecidableEq, Repr

/-- The built-in font: 16 glyphs of 5 bytes (`spec/20_memory.md` R53). -/
abbrev Font := Vector Byte 80

/-- The implementation parameters of R5 that no instruction and no operation changes. -/
structure Config where
  /-- `FLAG_ORDER` (R127). -/
  flagOrder : FlagOrder
  /-- `TIMERS_ON_CYCLE` (R89, R237). -/
  timersOnCycle : Bool
  /-- `FONT` (R53). -/
  font : Font
  deriving DecidableEq, Repr

/-- `RANDOM`: the byte that draw number `n` gives (`spec/41_alu.md` R133). A free value: it has no body, so a
statement about it holds whatever the draws are (assumption 5). -/
opaque Config.randomByte : Nat → Byte

end Sys2Proof
end

