-- ==== Sys2Proof/Machine/Defaults.lean ====
section
/-! DEFINITION. The default setting of the parameters (`spec/00_scope.md` R5, `spec/20_memory.md` R53). -/

namespace Sys2Proof.Machine

/-- Glyphs 0-7 of the default font (R53). PRESUMED: general knowledge, not in the source (assumption 2). -/
def fontGlyphs0to7 : Vector Byte 40 :=
  #v[0xF0, 0x90, 0x90, 0x90, 0xF0,
     0x20, 0x60, 0x20, 0x20, 0x70,
     0xF0, 0x10, 0xF0, 0x80, 0xF0,
     0xF0, 0x10, 0xF0, 0x10, 0xF0,
     0x90, 0x90, 0xF0, 0x10, 0x10,
     0xF0, 0x80, 0xF0, 0x10, 0xF0,
     0xF0, 0x80, 0xF0, 0x90, 0xF0,
     0xF0, 0x10, 0x20, 0x40, 0x40]

/-- Glyphs 8-F of the default font (R53). PRESUMED (assumption 2). -/
def fontGlyphs8toF : Vector Byte 40 :=
  #v[0xF0, 0x90, 0xF0, 0x90, 0xF0,
     0xF0, 0x90, 0xF0, 0x10, 0xF0,
     0xF0, 0x90, 0xF0, 0x90, 0x90,
     0xE0, 0x90, 0xE0, 0x90, 0xE0,
     0xF0, 0x80, 0x80, 0x80, 0xF0,
     0xE0, 0x90, 0x90, 0x90, 0xE0,
     0xF0, 0x80, 0xF0, 0x80, 0xF0,
     0xF0, 0x80, 0xF0, 0x80, 0x80]

/-- The default of `FONT` (R53). -/
def defaultFont : Font := fontGlyphs0to7 ++ fontGlyphs8toF

/-- The default setting: `FLAG_ORDER = table_order`, `TIMERS_ON_CYCLE = false`, the default font (R5). -/
def defaultConfig : Config :=
  { flagOrder := .tableOrder, timersOnCycle := false, font := defaultFont }

end Sys2Proof.Machine
end

