-- ==== Sys2Proof/Machine/Memory.lean ====
section
/-! DEFINITION. The 4096-byte memory (`spec/10_state.md` R20, `spec/20_memory.md` R50-R58) as a canonical list of cells:
addresses strictly rising below 4096, and no cell equal to what an unlisted address reads as. -/

namespace Sys2Proof.Machine

/-- The cells that differ from the reset contents. -/
abbrev Memory := List Host.Cell

/-- What an unlisted address reads as: the reset contents, the font at 0x000-0x04F and zero elsewhere (R20, R51). -/
def Memory.unlisted (font : Font) (a : Nat) : Byte :=
  if h : a < 80 then font[a] else 0#8

/-- `MemRead(a, 1)` (R58). -/
def Memory.read (font : Font) : Memory → Nat → Byte
  | [], a => Memory.unlisted font a
  | c :: m, a => if c.1 = a then c.2 else Memory.read font m a

/-- The cells without address `a`. -/
def Memory.drop (m : Memory) (a : Nat) : Memory := m.filter fun c => c.1 != a

/-- The cells with `(a, v)` put before the first cell that does not lie below it. -/
def Memory.place (a : Nat) (v : Byte) : Memory → Memory
  | [] => [(a, v)]
  | c :: m => if c.1 < a then c :: Memory.place a v m else (a, v) :: c :: m

/-- `MemWrite(a, 1, v)` (R58); writing the reset contents unlists the address. -/
def Memory.write (font : Font) (m : Memory) (a : Nat) (v : Byte) : Memory :=
  if v = Memory.unlisted font a then Memory.drop m a else Memory.place a v (Memory.drop m a)

/-- Bytes written at `a`, `a + 1`, …, in ascending order (R54, R56). -/
def Memory.writeBlock (font : Font) : Memory → Nat → List Byte → Memory
  | m, _, [] => m
  | m, a, v :: vs => Memory.writeBlock font (Memory.write font m a v) (a + 1) vs

/-- The `n` bytes at `a`, `a + 1`, … (R56). -/
def Memory.readBlock (font : Font) (m : Memory) (a n : Nat) : List Byte :=
  (List.range n).map fun k => Memory.read font m (a + k)

/-- The canonical form, with every listed address one of 0x000-0xFFF (R50). -/
abbrev Memory.wf (font : Font) (m : Memory) : Prop :=
  m.Pairwise (fun c d => c.1 < d.1) ∧ ∀ c ∈ m, c.1 < 4096 ∧ c.2 ≠ Memory.unlisted font c.1

/-- The bounds rule (R57): of the `n` addresses from `a` on, the lowest one above 0xFFF, if there is one. -/
def outOfRange (a n : Nat) : Option Nat :=
  if 0 < n ∧ 0xFFF < a + n - 1 then some (max a 0x1000) else none

end Sys2Proof.Machine
end

