-- ==== Sys2Proof/Machine/State.lean ====
section
/-! DEFINITION. The architectural state of the CORE (`spec/10_state.md`), the fault record, and the reset state
(`spec/70_reset_and_hazards.md` R260). -/

namespace Sys2Proof.Machine

/-- The record of a fault (`spec/60_exceptions.md` R220, R221). A cycle that raises one goes on to a NEXT state that
holds it (R226): it is state, not an outcome that ends the run. -/
inductive FaultRecord where
  /-- Code 1: the fetched word is illegal. -/
  | unknownOpcode (opcode pc : Word)
  /-- Code 2: CALL with a full stack. -/
  | stackOverflow (opcode pc : Word)
  /-- Code 3: RET with an empty stack. -/
  | stackUnderflow (opcode pc : Word)
  /-- Code 4: a data address above 0xFFF; `addr` is the lowest of them. -/
  | memoryOutOfRange (opcode pc : Word) (addr : Nat)
  /-- Code 5: a fetch with pc above 0xFFE. -/
  | fetchOutOfRange (pc : Word)
  /-- Code 6: a key index above 0xF. -/
  | keyIndexOutOfRange (opcode pc : Word) (index : Byte)
  deriving DecidableEq, Repr

/-- Why an operation of the block's interface ends without a next state. No cycle ever ends so. -/
inductive Fault where
  /-- Raised by `loadProgram` for more than 3584 bytes (R222, R267). Safe: the spec's own error result, and the caller
  keeps the block as it was. -/
  | programTooLarge
  deriving DecidableEq, Repr

/-- What the model refuses. No cycle of a machine that has been reset is refused. -/
inductive Refusal where
  /-- Raised by an arm of `exec` whose instruction has no meaning yet; no arm raises it. Safe. -/
  | notModelled (mnemonic : String)
  /-- Raised by every interface operation but `reset` before the first `reset` (R39). Safe. -/
  | beforeFirstReset
  /-- Raised by `setKey` with a key above 0xF (R243). Safe. -/
  | noSuchKey
  /-- Raised by `tickTimers` when `TIMERS_ON_CYCLE` is true: the operation does not exist then (R6, R237). Safe. -/
  | noSeparateTick
  deriving DecidableEq, Repr

/-- The display buffer: bit `p` is the one-bit pixel `gfx[p]` (R30). -/
abbrev Gfx := BitVec 2048

/-- The state of the CORE. The first fourteen fields are the spec's; the last two are the model's own: the parameters
(assumption 1) and the number of the next random draw (assumption 5). -/
structure State where
  /-- V0-VF (R21). -/
  v : Vector Byte 16
  /-- I (R24). -/
  i : Word
  /-- pc (R25). -/
  pc : Word
  /-- The return-address stack (R26). -/
  stack : Vector Word 16
  /-- sp, the next free slot, 0 to 16 (R27). -/
  sp : Fin 17
  /-- DT, the delay timer (R28). -/
  dt : Byte
  /-- ST, the sound timer (R29). -/
  st : Byte
  /-- The display buffer (R30). -/
  gfx : Gfx
  /-- draw_flag (R31). -/
  drawFlag : Bool
  /-- The key-input latch (R32). -/
  keys : Vector Bool 16
  /-- `none`, or `some x` for waiting(x) (R33). -/
  wait : Option Reg
  /-- The recorded fault (R34). -/
  fault : Option FaultRecord
  /-- memory, as the cells that differ from the reset contents (R20). -/
  mem : Memory
  /-- The parameters of R5; nothing writes them. -/
  config : Config
  /-- The number of the next draw from RANDOM (R133). -/
  draws : Nat
  deriving DecidableEq, Repr

/-- Every state element at its reset value (R260), under the parameters `c`, with the oracle at draw `n`. -/
def State.resetWith (c : Config) (n : Nat) : State where
  v := Vector.replicate 16 0#8
  i := 0x0000#16
  pc := 0x0200#16
  stack := Vector.replicate 16 0#16
  sp := 0
  dt := 0#8
  st := 0#8
  gfx := 0#2048
  drawFlag := false
  keys := Vector.replicate 16 false
  wait := none
  fault := none
  mem := []
  config := c
  draws := n

/-- The machine right after its first reset, under the default parameters (R260, R5); draw 0 comes next. -/
def State.reset : State := State.resetWith defaultConfig 0

end Sys2Proof.Machine
end

