-- ==== Sys2Proof/Machine/Ops.lean ====
section
/-! DEFINITION. The named operations over registers, memory, stack, timers and keys, raising a fault, and what every
instruction shares (`spec/00_scope.md` R9-R11). -/

namespace Sys2Proof.Machine

/-- What an instruction answers. -/
abbrev Result := Host.Outcome State Fault Refusal

/-! ### Registers -/

/-- `V[x]` (R9, R21). -/
def State.getV (s : State) (x : Reg) : Byte := s.v.get x

/-- `V[x] <- b` (R9, R21). -/
def State.setV (s : State) (x : Reg) (b : Byte) : State := { s with v := s.v.set x.val b x.isLt }

/-- `I <- w` (R9, R24). -/
def State.setI (s : State) (w : Word) : State := { s with i := w }

/-- `pc <- w` (R9, R25). -/
def State.jump (s : State) (w : Word) : State := { s with pc := w }

/-- `pc <- pc + 2`, mod 65536: the sequential advance (R25, R11). -/
def State.advance (s : State) : State := { s with pc := s.pc + 2#16 }

/-- A conditional skip: `pc + 4` when the condition holds, else `pc + 2` (R100). -/
def State.skipIf (s : State) (cond : Bool) : State :=
  { s with pc := if cond then s.pc + 4#16 else s.pc + 2#16 }

/-! ### Memory (R58) -/

/-- `MemRead(a, 1)`. -/
def State.readByte (s : State) (a : Nat) : Byte := s.mem.read s.config.font a

/-- The `n` bytes from `a` on. -/
def State.readBlock (s : State) (a n : Nat) : List Byte := s.mem.readBlock s.config.font a n

/-- Bytes stored from `a` on. -/
def State.writeBlock (s : State) (a : Nat) (bs : List Byte) : State :=
  { s with mem := s.mem.writeBlock s.config.font a bs }

/-! ### Raising a fault -/

/-- `raise`: the fault is recorded and nothing else changes (R10, R223, R226). There is no handler, no saved register
and no return from a fault: only the interface's `reset` leaves it (R227). -/
def State.raise (s : State) (r : FaultRecord) : State := { s with fault := some r }

/-- Code of the fault kind (R220). -/
def FaultRecord.code : FaultRecord → Nat
  | .unknownOpcode _ _ => 1
  | .stackOverflow _ _ => 2
  | .stackUnderflow _ _ => 3
  | .memoryOutOfRange _ _ _ => 4
  | .fetchOutOfRange _ => 5
  | .keyIndexOutOfRange _ _ _ => 6

/-- The record's pc field (R221). -/
def FaultRecord.pc : FaultRecord → Word
  | .unknownOpcode _ pc => pc
  | .stackOverflow _ pc => pc
  | .stackUnderflow _ pc => pc
  | .memoryOutOfRange _ pc _ => pc
  | .fetchOutOfRange pc => pc
  | .keyIndexOutOfRange _ pc _ => pc

/-- The record's opcode field, present for every kind but `FetchOutOfRange` (R221). -/
def FaultRecord.opcode : FaultRecord → Option Word
  | .unknownOpcode op _ => some op
  | .stackOverflow op _ => some op
  | .stackUnderflow op _ => some op
  | .memoryOutOfRange op _ _ => some op
  | .fetchOutOfRange _ => none
  | .keyIndexOutOfRange op _ _ => some op

/-! ### The return-address stack (R26, R27) -/

/-- `stack[sp] <- w; sp <- sp + 1`, or `none` for a full stack. -/
def State.push (s : State) (w : Word) : Option State :=
  if h : s.sp.val < 16 then
    some { s with stack := s.stack.set s.sp.val w h, sp := ⟨s.sp.val + 1, by omega⟩ }
  else none

/-- `sp <- sp - 1`, with the entry then at `stack[sp]`, or `none` for an empty stack; the entry is not cleared. -/
def State.pop (s : State) : Option (State × Word) :=
  if h : s.sp.val = 0 then none
  else
    some ({ s with sp := ⟨s.sp.val - 1, by omega⟩ }, s.stack[s.sp.val - 1]'(by omega))

/-! ### Timers (`spec/60_exceptions.md` R235, R236) -/

/-- A timer one tick later: it stops at 0. -/
def timerTick (t : Byte) : Byte := if t = 0#8 then 0#8 else t - 1#8

/-- The body of `tick_timers`. -/
def State.tick (s : State) : State := { s with dt := timerTick s.dt, st := timerTick s.st }

/-- The beep signal of a tick that starts from this state. -/
def State.beep (s : State) : Bool := s.st == 1#8

/-! ### Keys -/

/-- `max K` for the set `K` of keys that are down (R88). -/
def highestKey (keys : Vector Bool 16) : Option Reg := (List.finRange 16).reverse.find? fun k => keys.get k

/-- A key's index as a byte. -/
def byteOfKey (k : Reg) : Byte := BitVec.ofNat 8 k.val

/-- The completion of FX0A: the highest key that is down goes to V[x], the wait ends and pc moves on (R88, R195). -/
def State.takeKey (s : State) (x k : Reg) : State := { (s.setV x (byteOfKey k)).advance with wait := none }

end Sys2Proof.Machine
end

