-- ==== Sys2Proof/Machine/Operands.lean ====
section
/-! DEFINITION. Operand forms: immediates, register operands, effective addresses and the blocks an instruction moves
(`spec/30_encoding.md` R73, `spec/20_memory.md` R56). -/

namespace Sys2Proof.Machine

/-- `zext_16` of a byte (R9, R73). -/
def zextByte (b : Byte) : Word := b.setWidth 16

/-- `zext_16(NNN)` (R73). -/
def zextAddr (a : Addr12) : Word := a.setWidth 16

/-- I as the base of a data access: an unbounded natural number (R56). -/
def State.indexBase (s : State) : Nat := s.i.toNat

/-- The target of BNNN: `V[0] + NNN` (R108). -/
def State.indexedTarget (s : State) (nnn : Addr12) : Word := zextByte (s.getV 0) + zextAddr nnn

/-- The font address of FX29: `V[X] * 5`, unmasked (R153). -/
def glyphAddress (b : Byte) : Word := zextByte b * 5#16

/-- The key a byte names, or `none` above 0xF (R191). -/
def keyOperand (b : Byte) : Option Reg := if h : b.toNat < 16 then some ⟨b.toNat, h⟩ else none

/-- The level of the key a register holds the index of (R192). -/
def State.keyDown (s : State) (k : Reg) : Bool := s.keys.get k

/-- The register block V0..VX of FX55 and FX65: its length (R155, R156). -/
def blockLength (x : Reg) : Nat := x.val + 1

/-- The bytes FX55 stores: V0, …, VX (R155). -/
def State.regBlock (s : State) (x : Reg) : List Byte := s.v.toList.take (blockLength x)

/-- The registers after FX65: V0..VX from memory, the others as they were (R156). -/
def State.loadRegs (s : State) (x : Reg) : State :=
  { s with v := Vector.ofFn fun r => if r.val ≤ x.val then s.readByte (s.indexBase + r.val) else s.v.get r }

/-- The three decimal digits FX33 stores: hundreds, tens, units (R154). -/
def bcdDigits (b : Byte) : List Byte :=
  [BitVec.ofNat 8 (b.toNat / 100), BitVec.ofNat 8 (b.toNat / 10 % 10), BitVec.ofNat 8 (b.toNat % 10)]

/-- The sprite of DXYN: `n` rows from I on (R173). -/
def State.spriteRows (s : State) (n : Nat) : List Byte := s.readBlock s.indexBase n

/-- The bounds check of a data access of `n` bytes from I on (R57): the check comes before every effect, and the fault
records the lowest address above 0xFFF. -/
def State.checked (s : State) (i : Instr) (n : Nat) (effect : State) : Result :=
  match outOfRange s.indexBase n with
  | some a => .next (s.raise (.memoryOutOfRange (encodeWord i) s.pc a))
  | none => .next effect

end Sys2Proof.Machine
end

