-- ==== Sys2Proof/Machine/Flags.lean ====
section
/-! DEFINITION. Every value VF takes as a side effect (`spec/10_state.md` R22) and the two orders of its write
(`spec/41_alu.md` R127). -/

namespace Sys2Proof.Machine

/-- A flag as the byte VF holds. -/
def flagByte (b : Bool) : Byte := if b then 1#8 else 0#8

/-- 8XY4: 1 when the sum exceeds 255 (R128). -/
def carryFlag (a b : Byte) : Byte := flagByte (decide (255 < a.toNat + b.toNat))

/-- 8XY5, and 8XY7 with its operands exchanged: 1 when there is no borrow, `a >= b` (R129, R131). -/
def noBorrowFlag (a b : Byte) : Byte := flagByte (decide (b.toNat ≤ a.toNat))

/-- 8XY6: the bit shifted out on the right (R130). -/
def lowBitFlag (a : Byte) : Byte := a &&& 0x01#8

/-- 8XYE: the bit shifted out on the left (R132). -/
def highBitFlag (a : Byte) : Byte := a >>> 7

/-- A flag-writing instruction whose result is computed from values read before any write (8XY4's `sum`, R128): the
order of the two writes is what FLAG_ORDER fixes (R127). -/
def State.writeFlagAndSum (s : State) (x : Reg) (flag result : Byte) : State :=
  match s.config.flagOrder with
  | .tableOrder => (s.setV regF flag).setV x result
  | .flagLast => (s.setV x result).setV regF flag

/-- A flag-writing instruction of the form `VF = flag; V[X] = result(V[X], V[Y])` (R129-R132). In table order the result
reads the registers after VF was written; in flag-last order every read comes first (R127). -/
def State.writeFlagThenResult (s : State) (x y : Reg) (flag : Byte) (result : Byte → Byte → Byte) : State :=
  match s.config.flagOrder with
  | .tableOrder =>
    let s' := s.setV regF flag
    s'.setV x (result (s'.getV x) (s'.getV y))
  | .flagLast => (s.setV x (result (s.getV x) (s.getV y))).setV regF flag

end Sys2Proof.Machine
end

