-- ==== Sys2Proof/Machine/Alu.lean ====
section
/-! DEFINITION. The 8-bit ALU, register moves and the random byte (`spec/41_alu.md`). -/

namespace Sys2Proof.Machine

/-- 6XKK `LD Vx, byte` (R121). -/
def execLdByte (x : Reg) (kk : Byte) (s : State) : Result := .next (s.setV x kk).advance

/-- 7XKK `ADD Vx, byte`: no flag (R122). -/
def execAddByte (x : Reg) (kk : Byte) (s : State) : Result := .next (s.setV x (s.getV x + kk)).advance

/-- 8XY0 `LD Vx, Vy` (R123). -/
def execLdReg (x y : Reg) (s : State) : Result := .next (s.setV x (s.getV y)).advance

/-- 8XY1 `OR Vx, Vy`: VF is not reset (R124). -/
def execOrReg (x y : Reg) (s : State) : Result := .next (s.setV x (s.getV x ||| s.getV y)).advance

/-- 8XY2 `AND Vx, Vy` (R125). -/
def execAndReg (x y : Reg) (s : State) : Result := .next (s.setV x (s.getV x &&& s.getV y)).advance

/-- 8XY3 `XOR Vx, Vy` (R126). -/
def execXorReg (x y : Reg) (s : State) : Result := .next (s.setV x (s.getV x ^^^ s.getV y)).advance

/-- 8XY4 `ADD Vx, Vy`: the sum is read before any write (R128). -/
def execAddReg (x y : Reg) (s : State) : Result :=
  .next (s.writeFlagAndSum x (carryFlag (s.getV x) (s.getV y)) (s.getV x + s.getV y)).advance

/-- 8XY5 `SUB Vx, Vy` (R129). -/
def execSubReg (x y : Reg) (s : State) : Result :=
  .next (s.writeFlagThenResult x y (noBorrowFlag (s.getV x) (s.getV y)) fun a b => a - b).advance

/-- 8XY6 `SHR Vx`: Y is ignored (R130, R82). -/
def execShr (x _y : Reg) (s : State) : Result :=
  .next (s.writeFlagThenResult x x (lowBitFlag (s.getV x)) fun a _ => a >>> 1).advance

/-- 8XY7 `SUBN Vx, Vy` (R131). -/
def execSubnReg (x y : Reg) (s : State) : Result :=
  .next (s.writeFlagThenResult x y (noBorrowFlag (s.getV y) (s.getV x)) fun a b => b - a).advance

/-- 8XYE `SHL Vx`: Y is ignored (R132, R82). -/
def execShl (x _y : Reg) (s : State) : Result :=
  .next (s.writeFlagThenResult x x (highBitFlag (s.getV x)) fun a _ => a <<< 1).advance

/-- CXKK with the byte the oracle gives: `V[X] <- r AND KK`; one draw is used up (R133). -/
def State.storeRandom (s : State) (x : Reg) (kk r : Byte) : State :=
  { (s.setV x (r &&& kk)).advance with draws := s.draws + 1 }

/-- CXKK `RND Vx, byte` (R133). -/
def execRnd (x : Reg) (kk : Byte) (s : State) : Result :=
  .next (s.storeRandom x kk (Config.randomByte s.draws))

end Sys2Proof.Machine
end

