-- ==== Sys2Proof/Machine/ControlFlow.lean ====
section
/-! DEFINITION. Return, jump, call, skips and the indexed jump (`spec/40_control_flow.md`). -/

namespace Sys2Proof.Machine

/-- 00EE `RET` (R101). -/
def execRet (s : State) : Result :=
  match s.pop with
  | none => .next (s.raise (.stackUnderflow (encodeWord .ret) s.pc))
  | some (s', w) => .next (s'.jump (w + 2#16))

/-- 1NNN `JP addr` (R102). -/
def execJp (nnn : Addr12) (s : State) : Result := .next (s.jump (zextAddr nnn))

/-- 2NNN `CALL addr`: the address pushed is that of the CALL itself (R103). -/
def execCall (nnn : Addr12) (s : State) : Result :=
  match s.push s.pc with
  | none => .next (s.raise (.stackOverflow (encodeWord (.call nnn)) s.pc))
  | some s' => .next (s'.jump (zextAddr nnn))

/-- 3XKK `SE Vx, byte` (R104). -/
def execSeByte (x : Reg) (kk : Byte) (s : State) : Result := .next (s.skipIf (s.getV x == kk))

/-- 4XKK `SNE Vx, byte` (R105). -/
def execSneByte (x : Reg) (kk : Byte) (s : State) : Result := .next (s.skipIf (s.getV x != kk))

/-- 5XY0 `SE Vx, Vy` (R106). -/
def execSeReg (x y : Reg) (s : State) : Result := .next (s.skipIf (s.getV x == s.getV y))

/-- 9XY0 `SNE Vx, Vy` (R107). -/
def execSneReg (x y : Reg) (s : State) : Result := .next (s.skipIf (s.getV x != s.getV y))

/-- BNNN `JP V0, addr` (R108). -/
def execJpV0 (nnn : Addr12) (s : State) : Result := .next (s.jump (s.indexedTarget nnn))

end Sys2Proof.Machine
end

