-- ==== Sys2Proof/Machine/Display.lean ====
section
/-! DEFINITION. The display buffer and the XOR-draw unit (`spec/43_display.md`). -/

namespace Sys2Proof.Machine

/-- The index of pixel (x, y), each coordinate wrapping on its own: row-major, 64 columns by 32 rows (R171, R173). -/
def pixelIndex (x y : Nat) : Nat := y % 32 * 64 + x % 64

/-- `gfx[p]` (R30). -/
def Gfx.pixel (g : Gfx) (p : Nat) : Bool := g.getLsbD p

/-- `gfx[p] <- gfx[p] XOR 1`. -/
def Gfx.flip (g : Gfx) (p : Nat) : Gfx := g ^^^ (1#2048 <<< p)

/-- The pixel bit of column `c` of a sprite row: bit 7 is column 0 (R172). -/
def spriteBit (row : Byte) (c : Nat) : Bool := row.getLsbD (7 - c)

/-- The drawing in progress: the buffer and whether a pixel has gone from set to unset. -/
structure Canvas where
  gfx : Gfx
  collision : Bool
  deriving DecidableEq, Repr

/-- XOR one set sprite pixel onto the buffer (R173). -/
def Canvas.plot (c : Canvas) (p : Nat) : Canvas := ⟨c.gfx.flip p, c.collision || c.gfx.pixel p⟩

/-- Draw one sprite row at column `x`, row `y` (R173). -/
def Canvas.drawRow (row : Byte) (x y : Nat) (c : Canvas) : Canvas :=
  (List.range 8).foldl (fun c k => if spriteBit row k then c.plot (pixelIndex (x + k) y) else c) c

/-- Draw the rows of a sprite from row `y` downward (R173). -/
def Canvas.drawRows : List Byte → Nat → Nat → Canvas → Canvas
  | [], _, _, c => c
  | row :: rows, x, y, c => Canvas.drawRows rows x (y + 1) (Canvas.drawRow row x y c)

/-- 00E0 `CLS`: draw_flag is set (R170). -/
def execCls (s : State) : Result := .next { s with gfx := 0#2048, drawFlag := true }.advance

/-- DXYN's effect once its addresses are in range (R173): the coordinates are read before VF is written. -/
def State.drawSprite (s : State) (x y : Reg) (n : Nat) : State :=
  let c := Canvas.drawRows (s.spriteRows n) (s.getV x).toNat (s.getV y).toNat ⟨s.gfx, false⟩
  { s.setV regF (flagByte c.collision) with gfx := c.gfx, drawFlag := true }

/-- DXYN `DRW Vx, Vy, nibble` (R173). -/
def execDrw (x y : Reg) (n : Nat) (s : State) : Result :=
  s.checked (.drw x y n) n (s.drawSprite x y n).advance

end Sys2Proof.Machine
end

