-- ==== Sys2Proof/Machine/IndexMemory.lean ====
section
/-! DEFINITION. The index register and the memory transfers (`spec/42_index_memory.md`). -/

namespace Sys2Proof.Machine

/-- ANNN `LD I, addr` (R151). -/
def execLdI (nnn : Addr12) (s : State) : Result := .next (s.setI (zextAddr nnn)).advance

/-- FX1E `ADD I, Vx`: mod 65536, no flag (R152). -/
def execAddI (x : Reg) (s : State) : Result := .next (s.setI (s.i + zextByte (s.getV x))).advance

/-- FX29 `LD F, Vx` (R153). -/
def execLdF (x : Reg) (s : State) : Result := .next (s.setI (glyphAddress (s.getV x))).advance

/-- FX33 `LD B, Vx` (R154). -/
def execLdB (x : Reg) (s : State) : Result :=
  s.checked (.ldB x) 3 (s.writeBlock s.indexBase (bcdDigits (s.getV x))).advance

/-- FX55 `LD [I], Vx`: I is not changed (R155). -/
def execStore (x : Reg) (s : State) : Result :=
  s.checked (.store x) (blockLength x) (s.writeBlock s.indexBase (s.regBlock x)).advance

/-- FX65 `LD Vx, [I]`: I is not changed (R156). -/
def execLoad (x : Reg) (s : State) : Result :=
  s.checked (.load x) (blockLength x) (s.loadRegs x).advance

end Sys2Proof.Machine
end

