-- ==== Sys2Proof/Machine/KeysTimers.lean ====
section
/-! DEFINITION. Key input and timer access (`spec/44_keys_timers.md`), and the wait step of FX0A
(`spec/30_encoding.md` R88). -/

namespace Sys2Proof.Machine

/-- A key skip: `KeyIndexOutOfRange` for V[X] above 0xF, else a skip when the level of the key is `level` (R191-R193). -/
def State.keySkip (s : State) (i : Instr) (x : Reg) (level : Bool) : Result :=
  match keyOperand (s.getV x) with
  | none => .next (s.raise (.keyIndexOutOfRange (encodeWord i) s.pc (s.getV x)))
  | some k => .next (s.skipIf (s.keyDown k == level))

/-- EX9E `SKP Vx` (R192). -/
def execSkp (x : Reg) (s : State) : Result := s.keySkip (.skp x) x true

/-- EXA1 `SKNP Vx` (R193). -/
def execSknp (x : Reg) (s : State) : Result := s.keySkip (.sknp x) x false

/-- FX07 `LD Vx, DT` (R194). -/
def execLdVxDT (x : Reg) (s : State) : Result := .next (s.setV x s.dt).advance

/-- FX15 `LD DT, Vx` (R196). -/
def execLdDTVx (x : Reg) (s : State) : Result := .next { s with dt := s.getV x }.advance

/-- FX18 `LD ST, Vx` (R197). -/
def execLdSTVx (x : Reg) (s : State) : Result := .next { s with st := s.getV x }.advance

/-- FX0A `LD Vx, K`: with a key down it completes at once, else it enters the wait with pc unchanged (R195). -/
def execLdVxK (x : Reg) (s : State) : Result :=
  match highestKey s.keys with
  | some k => .next (s.takeKey x k)
  | none => .next { s with wait := some x }

/-- The wait step for waiting(x): it fetches nothing and cannot fault (R88). -/
def waitStep (x : Reg) (s : State) : State :=
  match highestKey s.keys with
  | some k => s.takeKey x k
  | none => s

end Sys2Proof.Machine
end

