-- ==== Sys2Proof/Machine/Cycle.lean ====
section
/-! DEFINITION. The instruction cycle `execute_cycle` (`spec/30_encoding.md` R85-R91) and the fetch
(`spec/20_memory.md` R59). -/

namespace Sys2Proof.Machine

/-- The opcode at pc: the high byte at pc, the low byte at pc + 1, whatever the parity of pc (R54, R55, R59). -/
def State.fetchWord (s : State) : Word := wordOfBytes (s.readByte s.pc.toNat) (s.readByte (s.pc.toNat + 1))

/-- One fetch-decode-execute step, with the faults of fetch and decode in their order (R87, R59, R224). -/
def fetchExecute (s : State) : Result :=
  if 0xFFE < s.pc.toNat then .next (s.raise (.fetchOutOfRange s.pc))
  else
    match decodeWord s.fetchWord with
    | none => .next (s.raise (.unknownOpcode s.fetchWord s.pc))
    | some i => exec i s

/-- The cycle before its timer step: the wait step while a key is awaited, else one fetch-decode-execute step (R86). -/
def cycleBody (s : State) : Result :=
  match s.wait with
  | some x => .next (waitStep x s)
  | none => fetchExecute s

/-- Whether the cycle that left `t` makes a timer step: it raised nothing and TIMERS_ON_CYCLE is true (R89). -/
def State.stepsTimers (t : State) : Bool := t.fault.isNone && t.config.timersOnCycle

/-- The timer step that ends a cycle, where there is one (R89). -/
def State.endCycle (t : State) : State := if t.stepsTimers then t.tick else t

/-- A cycle's end, on whatever its body answered. -/
def finishCycle : Result → Result
  | .next t => .next t.endCycle
  | .fault f => .fault f
  | .refused r => .refused r

/-- `execute_cycle()`: with a fault recorded nothing changes (R85, R227). -/
def cycle (s : State) : Result :=
  match s.fault with
  | some _ => .next s
  | none => finishCycle (cycleBody s)

/-- The beep signal a cycle returns: that of its timer step, false when it makes none (R90, R236). -/
def cycleBeep (s : State) : Bool :=
  match s.fault, cycleBody s with
  | none, .next t => t.stepsTimers && t.beep
  | _, _ => false

/-- A machine whose next cycle fetches: no recorded fault, no wait, pc where two bytes can be read. -/
def State.readyToFetch (s : State) : State :=
  { s with fault := none, wait := none, pc := if 0xFFE < s.pc.toNat then 0x0200#16 else s.pc }

/-- An opcode stored at pc, big-endian (R54). -/
def State.placeOpcode (s : State) (w : Word) : State := s.writeBlock s.pc.toNat (bytesOfWord w)

end Sys2Proof.Machine
end

