-- ==== Sys2Proof/Machine/Step.lean ====
section
/-! DEFINITION. One step of the machine: one `execute_cycle()` (`spec/30_encoding.md` R85-R91). -/

namespace Sys2Proof.Machine

/-- One `execute_cycle()`. -/
def step (s : State) : Host.Outcome State Fault Refusal := cycle s

/-- `s` with the low `nbits` bits of `w` as the opcode that `step` fetches next, and a cycle that fetches
(assumption 6). -/
def State.withFetchWord (s : State) (nbits w : Nat) : State :=
  s.readyToFetch.placeOpcode (BitVec.ofNat 16 (w % 2 ^ nbits))

end Sys2Proof.Machine
end

