-- ==== Sys2Proof/Machine/Assembly.lean ====
section
/-! DEFINITION. The assembler syntax the spec writes instructions in (`spec/30_encoding.md` R92, R93). It names
instructions; no cycle reads it. -/

namespace Sys2Proof.Machine

/-- The names of R92. -/
inductive AsmName where
  | CLS | RET | JP | CALL | SE | SNE | LD | ADD | OR | AND | XOR | SUB | SHR | SUBN | SHL | RND | DRW | SKP | SKNP
  deriving DecidableEq, Repr

/-- The operands of R92: registers, immediates, and the fixed keywords. -/
inductive AsmOperand where
  | reg (r : Reg)
  | byte (b : Byte)
  | addr (a : Addr12)
  | nibble (n : Nat)
  | kwI
  | kwDT
  | kwST
  | kwK
  | kwF
  | kwB
  /-- `[I]`. -/
  | atI
  deriving DecidableEq, Repr

/-- A line of assembly. -/
structure AsmLine where
  name : AsmName
  operands : List AsmOperand
  deriving DecidableEq, Repr

/-- The operands of a shift: a Y of 0 is left out (R92). -/
def shiftOperands (x y : Reg) : List AsmOperand := if y = 0 then [.reg x] else [.reg x, .reg y]

/-- An instruction as R92 writes it. -/
def asmOf : Instr → AsmLine
  | .cls => ⟨.CLS, []⟩
  | .ret => ⟨.RET, []⟩
  | .jp nnn => ⟨.JP, [.addr nnn]⟩
  | .call nnn => ⟨.CALL, [.addr nnn]⟩
  | .seByte x kk => ⟨.SE, [.reg x, .byte kk]⟩
  | .sneByte x kk => ⟨.SNE, [.reg x, .byte kk]⟩
  | .seReg x y => ⟨.SE, [.reg x, .reg y]⟩
  | .ldByte x kk => ⟨.LD, [.reg x, .byte kk]⟩
  | .addByte x kk => ⟨.ADD, [.reg x, .byte kk]⟩
  | .ldReg x y => ⟨.LD, [.reg x, .reg y]⟩
  | .orReg x y => ⟨.OR, [.reg x, .reg y]⟩
  | .andReg x y => ⟨.AND, [.reg x, .reg y]⟩
  | .xorReg x y => ⟨.XOR, [.reg x, .reg y]⟩
  | .addReg x y => ⟨.ADD, [.reg x, .reg y]⟩
  | .subReg x y => ⟨.SUB, [.reg x, .reg y]⟩
  | .shr x y => ⟨.SHR, shiftOperands x y⟩
  | .subnReg x y => ⟨.SUBN, [.reg x, .reg y]⟩
  | .shl x y => ⟨.SHL, shiftOperands x y⟩
  | .sneReg x y => ⟨.SNE, [.reg x, .reg y]⟩
  | .ldI nnn => ⟨.LD, [.kwI, .addr nnn]⟩
  | .jpV0 nnn => ⟨.JP, [.reg 0, .addr nnn]⟩
  | .rnd x kk => ⟨.RND, [.reg x, .byte kk]⟩
  | .drw x y n => ⟨.DRW, [.reg x, .reg y, .nibble n]⟩
  | .skp x => ⟨.SKP, [.reg x]⟩
  | .sknp x => ⟨.SKNP, [.reg x]⟩
  | .ldVxDT x => ⟨.LD, [.reg x, .kwDT]⟩
  | .ldVxK x => ⟨.LD, [.reg x, .kwK]⟩
  | .ldDTVx x => ⟨.LD, [.kwDT, .reg x]⟩
  | .ldSTVx x => ⟨.LD, [.kwST, .reg x]⟩
  | .addI x => ⟨.ADD, [.kwI, .reg x]⟩
  | .ldF x => ⟨.LD, [.kwF, .reg x]⟩
  | .ldB x => ⟨.LD, [.kwB, .reg x]⟩
  | .store x => ⟨.LD, [.atI, .reg x]⟩
  | .load x => ⟨.LD, [.reg x, .atI]⟩

/-- The instruction a line stands for: one, or none (R92, R93). -/
def assemble (line : AsmLine) : Option Instr :=
  match line.name, line.operands with
  | .CLS, [] => some .cls
  | .RET, [] => some .ret
  | .JP, [.addr a] => some (.jp a)
  | .JP, [.reg r, .addr a] => if r = 0 then some (.jpV0 a) else none
  | .CALL, [.addr a] => some (.call a)
  | .SE, [.reg x, .byte b] => some (.seByte x b)
  | .SE, [.reg x, .reg y] => some (.seReg x y)
  | .SNE, [.reg x, .byte b] => some (.sneByte x b)
  | .SNE, [.reg x, .reg y] => some (.sneReg x y)
  | .LD, [.reg x, .byte b] => some (.ldByte x b)
  | .LD, [.reg x, .reg y] => some (.ldReg x y)
  | .LD, [.reg x, .kwDT] => some (.ldVxDT x)
  | .LD, [.reg x, .kwK] => some (.ldVxK x)
  | .LD, [.reg x, .atI] => some (.load x)
  | .LD, [.kwI, .addr a] => some (.ldI a)
  | .LD, [.kwDT, .reg x] => some (.ldDTVx x)
  | .LD, [.kwST, .reg x] => some (.ldSTVx x)
  | .LD, [.kwF, .reg x] => some (.ldF x)
  | .LD, [.kwB, .reg x] => some (.ldB x)
  | .LD, [.atI, .reg x] => some (.store x)
  | .ADD, [.reg x, .byte b] => some (.addByte x b)
  | .ADD, [.reg x, .reg y] => some (.addReg x y)
  | .ADD, [.kwI, .reg x] => some (.addI x)
  | .OR, [.reg x, .reg y] => some (.orReg x y)
  | .AND, [.reg x, .reg y] => some (.andReg x y)
  | .XOR, [.reg x, .reg y] => some (.xorReg x y)
  | .SUB, [.reg x, .reg y] => some (.subReg x y)
  | .SUBN, [.reg x, .reg y] => some (.subnReg x y)
  | .SHR, [.reg x] => some (.shr x 0)
  | .SHR, [.reg x, .reg y] => some (.shr x y)
  | .SHL, [.reg x] => some (.shl x 0)
  | .SHL, [.reg x, .reg y] => some (.shl x y)
  | .RND, [.reg x, .byte b] => some (.rnd x b)
  | .DRW, [.reg x, .reg y, .nibble n] => if n < 16 then some (.drw x y n) else none
  | .SKP, [.reg x] => some (.skp x)
  | .SKNP, [.reg x] => some (.sknp x)
  | _, _ => none

/-- A line of a source file (R92): an instruction, or a byte placed as it is (`DB`). -/
inductive SourceLine where
  | line (l : AsmLine)
  | db (b : Byte)
  deriving DecidableEq, Repr

/-- The bytes of a source line, or none for a line that stands for nothing; an instruction is two bytes, the high one
first (R92, R54). -/
def SourceLine.bytes : SourceLine → Option (List Byte)
  | .line l => (assemble l).map encode
  | .db b => some [b]

/-- The bytes of a source file, which is what `load_program` takes. -/
def sourceBytes : List SourceLine → Option (List Byte)
  | [] => some []
  | l :: ls => do
    let head ← l.bytes
    let tail ← sourceBytes ls
    pure (head ++ tail)

end Sys2Proof.Machine
end

