-- ==== Sys2Proof/Machine/Interface.lean ====
section
/-! DEFINITION. The operations of the block's interface, each one atomic transaction, and their interleaving
(`spec/00_scope.md` R6, R7; `spec/60_exceptions.md` R235-R246; `spec/70_reset_and_hazards.md` R260-R268). -/

namespace Sys2Proof.Machine

/-! ### What each operation does to the state -/

/-- `reset()`: every state element at its reset value, from any state; the parameters stay, and the oracle's draws are
not taken back (R260, R261, assumption 5). -/
def State.afterReset (s : State) : State := State.resetWith s.config s.draws

/-- The longest program: 4096 - 512 bytes (R267). -/
def maxProgramLength : Nat := 3584

/-- `load_program(bytes)` (R266-R268): a program that is too long is rejected and changes nothing. -/
def State.loadProgram (s : State) (bytes : List Byte) : Result :=
  if maxProgramLength < bytes.length then .fault .programTooLarge else .next (s.writeBlock 0x200 bytes)

/-- `tick_timers()`: an operation of its own only when TIMERS_ON_CYCLE is false; it runs in a wait and after a fault too
(R235, R237, R239). -/
def State.tickTimers (s : State) : Result :=
  if s.config.timersOnCycle then .refused .noSeparateTick else .next s.tick

/-- `set_key(k, down)` for a key 0x0-0xF; another key is refused (R243). -/
def State.setKey (s : State) (k : Nat) (down : Bool) : Result :=
  if h : k < 16 then .next { s with keys := s.keys.set k down h } else .refused .noSuchKey

/-- `clear_draw_flag()` (R242). -/
def State.clearDrawFlag (s : State) : State := { s with drawFlag := false }

/-! ### The interface -/

/-- The operations of R6. -/
inductive Operation where
  | reset
  | loadProgram (bytes : List Byte)
  | executeCycle
  | tickTimers
  | setKey (k : Nat) (down : Bool)
  | clearDrawFlag
  /-- The host reads the state (R246). -/
  | readState
  deriving DecidableEq, Repr

/-- What an operation returns to its caller. -/
inductive Reply where
  /-- `ok`, with nothing to report. -/
  | done
  /-- The outcome of a cycle: the fault it raised or found, and the beep signal (R90). -/
  | cycle (report : Option FaultRecord) (beep : Bool)
  /-- The beep signal of a tick (R235). -/
  | tick (beep : Bool)
  /-- The state as it was read (R246). -/
  | snapshot (s : State)
  deriving DecidableEq, Repr

/-- The block: before its first reset it has parameters and no state (R39). -/
inductive Block where
  | beforeReset (config : Config)
  | running (s : State)
  deriving DecidableEq, Repr

/-- An outcome of a state operation as an outcome of the block, with its reply. -/
def replying (reply : State → Reply) : Result → Host.Outcome (Block × Reply) Fault Refusal
  | .next t => .next (.running t, reply t)
  | .fault f => .fault f
  | .refused r => .refused r

/-- An operation on a block that has been reset. -/
def Operation.onState (op : Operation) (s : State) : Host.Outcome (Block × Reply) Fault Refusal :=
  match op with
  | .reset => .next (.running s.afterReset, .done)
  | .loadProgram bytes => replying (fun _ => .done) (s.loadProgram bytes)
  | .executeCycle => replying (fun t => .cycle t.fault (cycleBeep s)) (step s)
  | .tickTimers => replying (fun _ => .tick s.beep) s.tickTimers
  | .setKey k down => replying (fun _ => .done) (s.setKey k down)
  | .clearDrawFlag => .next (.running s.clearDrawFlag, .done)
  | .readState => .next (.running s, .snapshot s)

/-- An operation on a block that was never reset: all but `reset` are refused (R39). -/
def Operation.onFresh (op : Operation) (c : Config) : Host.Outcome (Block × Reply) Fault Refusal :=
  match op with
  | .reset => .next (.running (State.resetWith c 0), .done)
  | .loadProgram _ => .refused .beforeFirstReset
  | .executeCycle => .refused .beforeFirstReset
  | .tickTimers => .refused .beforeFirstReset
  | .setKey _ _ => .refused .beforeFirstReset
  | .clearDrawFlag => .refused .beforeFirstReset
  | .readState => .refused .beforeFirstReset

/-- One operation of the interface (R6). -/
def Operation.perform (op : Operation) : Block → Host.Outcome (Block × Reply) Fault Refusal
  | .beforeReset c => op.onFresh c
  | .running s => op.onState s

/-- The block after an operation: a rejected or refused operation changes nothing (R222, R39, R243). -/
def Block.after (b : Block) (op : Operation) : Block :=
  match op.perform b with
  | .next (b', _) => b'
  | .fault _ => b
  | .refused _ => b

/-- The block after a schedule of operations, in the order the host performs them: any list is a schedule (R7, R225,
R275). -/
def Block.run (b : Block) (schedule : List Operation) : Block := schedule.foldl Block.after b

end Sys2Proof.Machine
end

