-- ==== Sys2Proof/Safety.lean ====
section
/-! DEFINITION. The terms claims about the machine are stated in: what an instruction may write, what a fault record
promises, and the invariant of every reachable state. -/

namespace Sys2Proof.Machine

/-! ### What an instruction may change -/

/-- The V registers an instruction may write: its named destination, the block of FX65, and VF where the instruction
writes it as a side effect (`spec/10_state.md` R21, R22). -/
def writesReg : Instr → Reg → Bool
  | .cls, _ => false
  | .ret, _ => false
  | .jp _, _ => false
  | .call _, _ => false
  | .seByte _ _, _ => false
  | .sneByte _ _, _ => false
  | .seReg _ _, _ => false
  | .ldByte x _, r => r == x
  | .addByte x _, r => r == x
  | .ldReg x _, r => r == x
  | .orReg x _, r => r == x
  | .andReg x _, r => r == x
  | .xorReg x _, r => r == x
  | .addReg x _, r => r == x || r == regF
  | .subReg x _, r => r == x || r == regF
  | .shr x _, r => r == x || r == regF
  | .subnReg x _, r => r == x || r == regF
  | .shl x _, r => r == x || r == regF
  | .sneReg _ _, _ => false
  | .ldI _, _ => false
  | .jpV0 _, _ => false
  | .rnd x _, r => r == x
  | .drw _ _ _, r => r == regF
  | .skp _, _ => false
  | .sknp _, _ => false
  | .ldVxDT x, r => r == x
  | .ldVxK x, r => r == x
  | .ldDTVx _, _ => false
  | .ldSTVx _, _ => false
  | .addI _, _ => false
  | .ldF _, _ => false
  | .ldB _, _ => false
  | .store _, _ => false
  | .load x, r => decide (r.val ≤ x.val)

/-- `t` differs from `s` in pc at most. -/
def OnlyPc (s t : State) : Prop := t = { s with pc := t.pc }

/-- `t` differs from `s` in V registers and pc at most. -/
def OnlyRegsPc (s t : State) : Prop := t = { s with v := t.v, pc := t.pc }

/-- `t` differs from `s` in I and pc at most. -/
def OnlyIndexPc (s t : State) : Prop := t = { s with i := t.i, pc := t.pc }

/-- `t` differs from `s` in memory and pc at most. -/
def OnlyMemoryPc (s t : State) : Prop := t = { s with mem := t.mem, pc := t.pc }

/-- `t` differs from `s` in the stack, sp and pc at most. -/
def OnlyStackPc (s t : State) : Prop := t = { s with stack := t.stack, sp := t.sp, pc := t.pc }

/-- `t` differs from `s` in the display, draw_flag, VF and pc at most. -/
def OnlyDisplayRegsPc (s t : State) : Prop :=
  t = { s with v := t.v, gfx := t.gfx, drawFlag := t.drawFlag, pc := t.pc }

/-- Every byte of memory reads as before. -/
def SameMemory (s t : State) : Prop := ∀ a, t.readByte a = s.readByte a

/-- Every V register but those of `written` reads as before. -/
def SameRegsBut (s t : State) (written : Reg → Prop) : Prop := ∀ r, ¬ written r → t.getV r = s.getV r

/-- The word is row `(mask, pattern)` of the opcode table, and decodes to the instruction `build` makes of it
(`spec/30_encoding.md` R74, R75). -/
def RowDecodes (mask pattern : Word) (build : Word → Instr) : Prop :=
  ∀ w : Word, w &&& mask = pattern → decodeWord w = some (build w)

/-- How many of the 4096 words of a group are legal (`spec/30_encoding.md` R83). -/
def legalInGroup (op : Nibble) : Nat :=
  (List.range 4096).countP fun k => (decodeWord (encodeNNN op (BitVec.ofNat 12 k))).isSome

/-- The machine runs: no fault is recorded and no key is awaited, so its next cycle fetches (R85, R86). -/
def Running (s : State) : Prop := s.fault = none ∧ s.wait = none

/-! ### Accesses, keys, sprites -/

/-- Each of the `n` data addresses from I on is one of 0x000-0xFFF (`spec/20_memory.md` R56, R57). -/
def InRange (s : State) (n : Nat) : Prop := ∀ k < n, s.i.toNat + k ≤ 0xFFF

/-- `k` is the highest-indexed key that is down (`spec/30_encoding.md` R88). -/
def IsHighestKey (s : State) (k : Reg) : Prop := s.keys.get k = true ∧ ∀ j : Reg, k < j → s.keys.get j = false

/-- No key is down. -/
def NoKeyDown (s : State) : Prop := ∀ k : Reg, s.keys.get k = false

/-- Pixel (px, py) of the display (`spec/43_display.md` R171). -/
def pixelAt (s : State) (px py : Nat) : Prop := s.gfx.pixel (py * 64 + px) = true

/-- A set pixel of the `n`-row sprite at I, drawn from column `x0` and row `y0`, falls on pixel (px, py): bit 7 of a row is
its column 0, and each coordinate wraps on its own (`spec/43_display.md` R172, R173). -/
def SpriteCovers (s : State) (x0 y0 n px py : Nat) : Prop :=
  ∃ r < n, ∃ c < 8, (x0 + c) % 64 = px ∧ (y0 + r) % 32 = py ∧ (s.readByte (s.i.toNat + r)).getLsbD (7 - c) = true

/-- The state with another setting of FLAG_ORDER (`spec/41_alu.md` R127). -/
def State.withOrder (s : State) (o : FlagOrder) : State := { s with config := { s.config with flagOrder := o } }

/-- A function on the state under an outcome. -/
def mapNext (f : State → State) : Result → Result
  | .next t => .next (f t)
  | .fault e => .fault e
  | .refused e => .refused e

/-! ### The invariant -/

/-- Instructions that access memory through I (`spec/20_memory.md` R56). -/
def accessesMemory (i : Instr) : Prop :=
  (∃ x y n, i = .drw x y n) ∨ (∃ x, i = .ldB x) ∨ (∃ x, i = .store x) ∨ (∃ x, i = .load x)

/-- What a recorded fault still says of the state: its pc, its cause, and an opcode that can raise it
(`spec/60_exceptions.md` R220, R221, R223, R224). -/
def FaultRecord.truthful (s : State) : FaultRecord → Prop
  | .unknownOpcode op pc => pc = s.pc ∧ decodeWord op = none
  | .stackOverflow op pc => pc = s.pc ∧ s.sp = 16 ∧ ∃ nnn, decodeWord op = some (.call nnn)
  | .stackUnderflow op pc => pc = s.pc ∧ s.sp = 0 ∧ decodeWord op = some .ret
  | .memoryOutOfRange op pc addr =>
    pc = s.pc ∧ addr = max s.i.toNat 0x1000 ∧ ∃ i, decodeWord op = some i ∧ accessesMemory i
  | .fetchOutOfRange pc => pc = s.pc ∧ 0xFFE < pc.toNat
  | .keyIndexOutOfRange op pc index =>
    pc = s.pc ∧ 0xF < index.toNat ∧
      ∃ x, s.getV x = index ∧ (decodeWord op = some (.skp x) ∨ decodeWord op = some (.sknp x))

/-- The invariant: memory is in its canonical form inside 0x000-0xFFF; a machine that holds a fault awaits no key, and
its record is truthful. -/
def State.Inv (s : State) : Prop :=
  Memory.wf s.config.font s.mem ∧ ∀ r, s.fault = some r → s.wait = none ∧ r.truthful s

/-- The invariant of a block: that of its state, where it has one. -/
def Block.Inv : Block → Prop
  | .beforeReset _ => True
  | .running s => s.Inv

end Sys2Proof.Machine
end

