-- ==== Sys2Proof/Certificates/Slice0/Obligations.lean ====
section
/-! DEFINITION. The statements for the provers, each one from numbered rules of the spec. -/

open Sys2Proof Sys2Proof.Machine

/-! ### Encoding and decoding -/

/-- Words written out from the encodings of R74, one or more of each group, decode to the instruction they stand for. -/
def Obligations.SpecWordsDecode : Prop :=
  decodeTableWord 16 0x00E0 = some .cls ∧
  decodeTableWord 16 0x00EE = some .ret ∧
  decodeTableWord 16 0x2ABC = some (.call 0xABC) ∧
  decodeTableWord 16 0x5140 = some (.seReg 1 4) ∧
  decodeTableWord 16 0x7302 = some (.addByte 3 0x02) ∧
  decodeTableWord 16 0x8125 = some (.subReg 1 2) ∧
  decodeTableWord 16 0xA2F0 = some (.ldI 0x2F0) ∧
  decodeTableWord 16 0xD01F = some (.drw 0 1 15) ∧
  decodeTableWord 16 0xE5A1 = some (.sknp 5) ∧
  decodeTableWord 16 0xF265 = some (.load 2)

/-- Decoding the two bytes of any well-formed instruction gives it back, whatever bytes follow (R54, R70, R72-R75). -/
def Obligations.DecodeInvertsEncode : Prop :=
  ∀ (i : Instr) (rest : List Byte), i.wellFormed = true → decode (encode i ++ rest) = .ok (i, rest)

/-- No bit of a legal word is lost: the decoded instruction encodes to the word itself (R71, R75, R82). -/
def Obligations.EncodeInvertsDecode : Prop :=
  ∀ (w : Word) (i : Instr), decodeWord w = some i → encodeWord i = w ∧ i.wellFormed = true

/-- R74: there are 34 rows; a word is the instruction of a row exactly when `w AND mask = match`; no word is in two rows
(the spec marks the last clause as derived). -/
def Obligations.WordIsItsTableRow : Prop :=
  opcodeTable.length = 34 ∧
  (∀ w : Word, ∀ r ∈ opcodeTable, (w &&& r.mask = r.pattern ↔ (decodeWord w).map Instr.mnemonic = some r.mnemonic)) ∧
  ∀ w : Word, ∀ r ∈ opcodeTable, ∀ r' ∈ opcodeTable, w &&& r.mask = r.pattern → w &&& r'.mask = r'.pattern → r = r'

/-- R83: the legal words group by group, 43954 of 65536 in all; the other 21582 are illegal (the spec's own
derivation from R74). -/
def Obligations.LegalWordsByGroup : Prop :=
  legalInGroup 0x0 = 2 ∧
  (∀ op ∈ [0x1#4, 0x2#4, 0x3#4, 0x4#4, 0x6#4, 0x7#4, 0xA#4, 0xB#4, 0xC#4, 0xD#4], legalInGroup op = 4096) ∧
  legalInGroup 0x5 = 256 ∧ legalInGroup 0x9 = 256 ∧ legalInGroup 0x8 = 9 * 256 ∧
  legalInGroup 0xE = 2 * 16 ∧ legalInGroup 0xF = 9 * 16 ∧
  ((List.range 16).map fun op => legalInGroup (BitVec.ofNat 4 op)).sum = 43954 ∧
  ((List.range 16).map fun op => 4096 - legalInGroup (BitVec.ofNat 4 op)).sum = 21582

/-- R76: executing a word that matches no row raises UnknownOpcode, and nothing else changes. -/
def Obligations.UnmatchedWordRaisesUnknownOpcode : Prop :=
  ∀ s : State, Running s → s.pc.toNat ≤ 0xFFE → (∀ r ∈ opcodeTable, s.fetchWord &&& r.mask ≠ r.pattern) →
    step s = .next { s with fault := some (.unknownOpcode s.fetchWord s.pc) }

/-- Every instruction is written in R92's syntax in one way that assembles back to it, and a line that assembles stands
for that one instruction, or is a shift whose Y operand V0 is written out (R92, R93; the syntax is the spec's own
decision D23). -/
def Obligations.AssemblyNamesOneInstruction : Prop :=
  (∀ i : Instr, i.wellFormed = true → assemble (asmOf i) = some i) ∧
  ∀ (l : AsmLine) (i : Instr), assemble l = some i →
    i.wellFormed = true ∧ (asmOf i = l ∨ ∃ x : Reg, l = ⟨.SHR, [.reg x, .reg 0]⟩ ∨ l = ⟨.SHL, [.reg x, .reg 0]⟩)

/-! ### The cycle -/

/-- R59: with pc above 0xFFE the fetch raises FetchOutOfRange; else the opcode is the byte at pc above the byte at
pc + 1, for any parity of pc, and it alone decides what runs (the fault and the free parity are the spec's own decisions
D5, D6). -/
def Obligations.FetchIsTwoBytesBigEndian : Prop :=
  ∀ s : State, Running s →
    (0xFFE < s.pc.toNat → step s = .next { s with fault := some (.fetchOutOfRange s.pc) }) ∧
    (s.pc.toNat ≤ 0xFFE →
      let opcode : Word := s.readByte s.pc.toNat ++ s.readByte (s.pc.toNat + 1)
      (decodeWord opcode = none → step s = .next { s with fault := some (.unknownOpcode opcode s.pc) }) ∧
      ∀ i, decodeWord opcode = some i → step s = finishCycle (exec i s))

/-- A step of a running machine is `exec` of the instruction that the bytes at pc decode to, at that very state, and then
the timer step of a coupled cycle that raised nothing (R86, R87, R89). -/
def Obligations.StepRunsDecodedInstruction : Prop :=
  ∀ (s t : State) (i : Instr), Running s → s.pc.toNat ≤ 0xFFE → decode (s.readBlock s.pc.toNat 2) = .ok (i, []) →
    exec i s = .next t →
    step s = .next (if t.fault = none ∧ t.config.timersOnCycle = true then t.tick else t)

/-- The opcode that `withFetchWord` places is the one the next cycle fetches (the model's own way of placing a word,
assumption 6). -/
def Obligations.PlacedWordIsFetched : Prop :=
  ∀ (s : State) (w : Nat), w < 65536 →
    Running (s.withFetchWord 16 w) ∧ (s.withFetchWord 16 w).pc.toNat ≤ 0xFFE ∧
    (s.withFetchWord 16 w).fetchWord = BitVec.ofNat 16 w ∧
    (s.pc.toNat ≤ 0xFFE → (s.withFetchWord 16 w).pc = s.pc)

/-- R85: with a fault recorded, a cycle changes nothing and reports that fault again, and so does any number of cycles (the
spec's own decision D18); a reset clears it (D22). -/
def Obligations.FaultIsStickyUntilReset : Prop :=
  ∀ (s : State) (r : FaultRecord), s.fault = some r →
    step s = .next s ∧
    Operation.executeCycle.onState s = .next (.running s, .cycle (some r) false) ∧
    (∀ n, core.run n s = .next s) ∧
    s.afterReset.fault = none

/-- Every cycle answers a next state, a cycle that raises or that found a fault too (assumption 7); it returns the fault it
raised or found (R85, R90), and the beep signal of its timer step, false when it made none (R90, R236). It makes one when
TIMERS_ON_CYCLE is true and it neither raised nor found a fault (R89, the spec's own decisions D2, D24). -/
def Obligations.CycleNeverBlocksAndReports : Prop :=
  ∀ s : State, ∃ (t : State) (beep : Bool),
    step s = .next t ∧
    Operation.executeCycle.onState s = .next (.running t, .cycle t.fault beep) ∧
    (beep = true ↔ s.fault = none ∧ s.config.timersOnCycle = true ∧
      ∃ u, cycleBody s = .next u ∧ u.fault = none ∧ u.st = 1)

/-- R223: the state after a cycle that raises is the state before it with `fault` set (for kinds other than UnknownOpcode
the spec's own decision D4). -/
def Obligations.FaultsArePrecise : Prop :=
  ∀ (s t : State) (r : FaultRecord), s.fault = none → step s = .next t → t.fault = some r →
    t = { s with fault := some r } ∧ r.pc = s.pc

/-- A fault an instruction raises names the instruction's opcode and address, is of the one kind that instruction raises,
and tells the truth about its cause (R220, R221, R224). -/
def Obligations.RaisedFaultNamesItsCause : Prop :=
  ∀ (i : Instr) (s t : State) (r : FaultRecord), i.wellFormed = true → s.fault = none → exec i s = .next t →
    t.fault = some r → r.opcode = some (encodeWord i) ∧ r.pc = s.pc ∧ r.truthful s

/-- R89: a coupled cycle that raised nothing ends with one timer step, one that raises makes none; an uncoupled cycle
touches DT and ST through FX15 and FX18 only (the spec's own decisions D2, D24). -/
def Obligations.CoupledCycleStepsTimersOnce : Prop :=
  (∀ s u : State, s.config.timersOnCycle = true → s.fault = none → cycleBody s = .next u → u.fault = none →
    step s = .next { u with dt := u.dt - (if u.dt = 0 then 0 else 1), st := u.st - (if u.st = 0 then 0 else 1) }) ∧
  (∀ s t : State, step s = .next t → t.fault ≠ none → t.dt = s.dt ∧ t.st = s.st) ∧
  (∀ s t : State, s.config.timersOnCycle = false → step s = .next t →
    (t.dt ≠ s.dt → ∃ x, decodeWord s.fetchWord = some (.ldDTVx x)) ∧
    (t.st ≠ s.st → ∃ x, decodeWord s.fetchWord = some (.ldSTVx x)))

/-- R88: the wait step stores the highest key that is down, ends the wait and moves pc past the FX0A, without a fetch;
with no key down nothing changes. (The timer step of a coupled cycle follows either, `endCycle`. The
level-sensitive wait is the spec's own decision D12.) -/
def Obligations.WaitStepTakesHighestKey : Prop :=
  ∀ (s : State) (x : Reg), s.fault = none → s.wait = some x →
    (∀ k, IsHighestKey s k → ∃ t : State, step s = .next t.endCycle ∧ (t.getV x).toNat = k.val ∧ t.wait = none ∧
      t.pc = s.pc + 2 ∧ SameRegsBut s t (· = x) ∧ t = { s with v := t.v, wait := t.wait, pc := t.pc }) ∧
    (NoKeyDown s → step s = .next s.endCycle)

/-! ### Control flow -/

/-- R104-R107: a skip moves pc by 4 when its condition holds and by 2 when it does not, and changes nothing else. -/
def Obligations.SkipsMoveOnlyPc : Prop :=
  RowDecodes 0xF000 0x3000 (fun w => .seByte (xField w) (kkField w)) ∧
  RowDecodes 0xF000 0x4000 (fun w => .sneByte (xField w) (kkField w)) ∧
  RowDecodes 0xF00F 0x5000 (fun w => .seReg (xField w) (yField w)) ∧
  RowDecodes 0xF00F 0x9000 (fun w => .sneReg (xField w) (yField w)) ∧
  ∀ (x y : Reg) (kk : Byte) (s : State),
    (∃ t, exec (.seByte x kk) s = .next t ∧ t.pc = s.pc + (if s.getV x = kk then 4 else 2) ∧ OnlyPc s t ∧
      SameMemory s t) ∧
    (∃ t, exec (.sneByte x kk) s = .next t ∧ t.pc = s.pc + (if s.getV x ≠ kk then 4 else 2) ∧ OnlyPc s t ∧
      SameMemory s t) ∧
    (∃ t, exec (.seReg x y) s = .next t ∧ t.pc = s.pc + (if s.getV x = s.getV y then 4 else 2) ∧ OnlyPc s t ∧
      SameMemory s t) ∧
    (∃ t, exec (.sneReg x y) s = .next t ∧ t.pc = s.pc + (if s.getV x ≠ s.getV y then 4 else 2) ∧ OnlyPc s t ∧
      SameMemory s t)

/-- R102, R108: the jumps set pc to NNN, and to V0 + NNN, and change nothing else. -/
def Obligations.JumpsSetOnlyPc : Prop :=
  RowDecodes 0xF000 0x1000 (fun w => .jp (nnnField w)) ∧
  RowDecodes 0xF000 0xB000 (fun w => .jpV0 (nnnField w)) ∧
  ∀ (nnn : Addr12) (s : State),
    (∃ t, exec (.jp nnn) s = .next t ∧ t.pc.toNat = nnn.toNat ∧ OnlyPc s t ∧ SameMemory s t) ∧
    (∃ t, exec (.jpV0 nnn) s = .next t ∧ t.pc.toNat = (s.getV 0).toNat + nnn.toNat ∧ OnlyPc s t ∧ SameMemory s t)

/-- R103: CALL pushes its own address and jumps, or raises StackOverflow on a full stack (the fault is the spec's own
decision D3). -/
def Obligations.CallPushesItsOwnAddress : Prop :=
  RowDecodes 0xF000 0x2000 (fun w => .call (nnnField w)) ∧
  ∀ (nnn : Addr12) (s : State),
    (s.sp.val < 16 → ∃ t, exec (.call nnn) s = .next t ∧ t.pc.toNat = nnn.toNat ∧ t.sp.val = s.sp.val + 1 ∧
      (∀ j : Fin 16, t.stack.get j = if j.val = s.sp.val then s.pc else s.stack.get j) ∧
      OnlyStackPc s t ∧ SameMemory s t) ∧
    (s.sp.val = 16 →
      exec (.call nnn) s = .next { s with fault := some (.stackOverflow (encodeWord (.call nnn)) s.pc) })

/-- R101: RET pops a return address and adds 2 to it, leaving every stack entry as it was, or raises StackUnderflow on an
empty stack (the fault is the spec's own decision D3). -/
def Obligations.ReturnPopsAndAddsTwo : Prop :=
  RowDecodes 0xFFFF 0x00EE (fun _ => .ret) ∧
  ∀ s : State,
    (∀ j : Fin 16, s.sp.val = j.val + 1 → ∃ t, exec .ret s = .next t ∧ t.pc = s.stack.get j + 2 ∧ t.sp.val = j.val ∧
      t.stack = s.stack ∧ OnlyStackPc s t ∧ SameMemory s t) ∧
    (s.sp.val = 0 → exec .ret s = .next { s with fault := some (.stackUnderflow 0x00EE s.pc) })

/-- After a CALL, a RET that meets the stack as the CALL left it goes to the instruction after the CALL, with sp as it was
before the call (R101, R103). -/
def Obligations.ReturnResumesAfterCall : Prop :=
  ∀ (nnn : Addr12) (s t u : State), s.sp.val < 16 → exec (.call nnn) s = .next t → u.stack = t.stack → u.sp = t.sp →
    ∃ w, exec .ret u = .next w ∧ w.pc = s.pc + 2 ∧ w.sp = s.sp

/-! ### ALU -/

/-- R121, R122: the immediate load and the immediate add, mod 256, write V[X] only. -/
def Obligations.ImmediateLoadAndAdd : Prop :=
  RowDecodes 0xF000 0x6000 (fun w => .ldByte (xField w) (kkField w)) ∧
  RowDecodes 0xF000 0x7000 (fun w => .addByte (xField w) (kkField w)) ∧
  ∀ (x : Reg) (kk : Byte) (s : State),
    (∃ t, exec (.ldByte x kk) s = .next t ∧ t.getV x = kk ∧ t.pc = s.pc + 2 ∧
      SameRegsBut s t (· = x) ∧ OnlyRegsPc s t ∧ SameMemory s t) ∧
    (∃ t, exec (.addByte x kk) s = .next t ∧ (t.getV x).toNat = ((s.getV x).toNat + kk.toNat) % 256 ∧ t.pc = s.pc + 2 ∧
      SameRegsBut s t (· = x) ∧ OnlyRegsPc s t ∧ SameMemory s t)

/-- R123-R126: copy, OR, AND and XOR write V[X] only; VF is not reset. -/
def Obligations.MoveAndLogicWriteOnlyVx : Prop :=
  RowDecodes 0xF00F 0x8000 (fun w => .ldReg (xField w) (yField w)) ∧
  RowDecodes 0xF00F 0x8001 (fun w => .orReg (xField w) (yField w)) ∧
  RowDecodes 0xF00F 0x8002 (fun w => .andReg (xField w) (yField w)) ∧
  RowDecodes 0xF00F 0x8003 (fun w => .xorReg (xField w) (yField w)) ∧
  ∀ (x y : Reg) (s : State),
    (∃ t, exec (.ldReg x y) s = .next t ∧ t.getV x = s.getV y ∧ t.pc = s.pc + 2 ∧
      SameRegsBut s t (· = x) ∧ OnlyRegsPc s t ∧ SameMemory s t) ∧
    (∃ t, exec (.orReg x y) s = .next t ∧ t.getV x = s.getV x ||| s.getV y ∧ t.pc = s.pc + 2 ∧
      SameRegsBut s t (· = x) ∧ OnlyRegsPc s t ∧ SameMemory s t) ∧
    (∃ t, exec (.andReg x y) s = .next t ∧ t.getV x = s.getV x &&& s.getV y ∧ t.pc = s.pc + 2 ∧
      SameRegsBut s t (· = x) ∧ OnlyRegsPc s t ∧ SameMemory s t) ∧
    (∃ t, exec (.xorReg x y) s = .next t ∧ t.getV x = s.getV x ^^^ s.getV y ∧ t.pc = s.pc + 2 ∧
      SameRegsBut s t (· = x) ∧ OnlyRegsPc s t ∧ SameMemory s t)

/-- R128: 8XY4 stores the sum mod 256 in V[X] and the carry in VF. With X = F the sum overwrites the carry in table order,
and the carry stays in flag-last order. -/
def Obligations.AddWritesSumAndCarry : Prop :=
  RowDecodes 0xF00F 0x8004 (fun w => .addReg (xField w) (yField w)) ∧
  ∀ (x y : Reg) (s : State), ∃ t, exec (.addReg x y) s = .next t ∧ t.pc = s.pc + 2 ∧
    SameRegsBut s t (fun r => r = x ∨ r = regF) ∧ OnlyRegsPc s t ∧ SameMemory s t ∧
    (let sum := (s.getV x).toNat + (s.getV y).toNat
     let carry := if 255 < sum then 1 else 0
     (x ≠ regF → (t.getV x).toNat = sum % 256 ∧ (t.getV regF).toNat = carry) ∧
     (x = regF → s.config.flagOrder = .tableOrder → (t.getV regF).toNat = sum % 256) ∧
     (x = regF → s.config.flagOrder = .flagLast → (t.getV regF).toNat = carry))

/-- R129: 8XY5 stores V[X] - V[Y] mod 256 in V[X] and the no-borrow flag in VF; in table order the subtraction reads VF
after the flag was written there. -/
def Obligations.SubWritesDifferenceAndNoBorrow : Prop :=
  RowDecodes 0xF00F 0x8005 (fun w => .subReg (xField w) (yField w)) ∧
  ∀ (x y : Reg) (s : State), ∃ t, exec (.subReg x y) s = .next t ∧ t.pc = s.pc + 2 ∧
    SameRegsBut s t (fun r => r = x ∨ r = regF) ∧ OnlyRegsPc s t ∧ SameMemory s t ∧
    (let a := (s.getV x).toNat
     let b := (s.getV y).toNat
     let f := if b ≤ a then 1 else 0
     (x ≠ regF → y ≠ regF → (t.getV x).toNat = (256 + a - b) % 256 ∧ (t.getV regF).toNat = f) ∧
     (s.config.flagOrder = .tableOrder →
       (x ≠ regF → y = regF → (t.getV x).toNat = (256 + a - f) % 256 ∧ (t.getV regF).toNat = f) ∧
       (x = regF → y ≠ regF → (t.getV regF).toNat = (256 + f - b) % 256) ∧
       (x = regF → y = regF → (t.getV regF).toNat = 0)) ∧
     (s.config.flagOrder = .flagLast →
       (t.getV regF).toNat = f ∧ (x ≠ regF → (t.getV x).toNat = (256 + a - b) % 256)))

/-- R131: 8XY7 stores V[Y] - V[X] mod 256 in V[X] and the no-borrow flag in VF; in table order the subtraction reads VF
after the flag was written there. -/
def Obligations.SubnWritesDifferenceAndNoBorrow : Prop :=
  RowDecodes 0xF00F 0x8007 (fun w => .subnReg (xField w) (yField w)) ∧
  ∀ (x y : Reg) (s : State), ∃ t, exec (.subnReg x y) s = .next t ∧ t.pc = s.pc + 2 ∧
    SameRegsBut s t (fun r => r = x ∨ r = regF) ∧ OnlyRegsPc s t ∧ SameMemory s t ∧
    (let a := (s.getV x).toNat
     let b := (s.getV y).toNat
     let f := if a ≤ b then 1 else 0
     (x ≠ regF → y ≠ regF → (t.getV x).toNat = (256 + b - a) % 256 ∧ (t.getV regF).toNat = f) ∧
     (s.config.flagOrder = .tableOrder →
       (x ≠ regF → y = regF → (t.getV x).toNat = (256 + f - a) % 256 ∧ (t.getV regF).toNat = f) ∧
       (x = regF → y ≠ regF → (t.getV regF).toNat = (256 + b - f) % 256) ∧
       (x = regF → y = regF → (t.getV regF).toNat = 0)) ∧
     (s.config.flagOrder = .flagLast →
       (t.getV regF).toNat = f ∧ (x ≠ regF → (t.getV x).toNat = (256 + b - a) % 256)))

/-- R130, R132: the shifts move V[X] by one bit, put the bit shifted out in VF, and ignore Y; with X = F the shift reads
the flag back in table order, and the flag stays in flag-last order. -/
def Obligations.ShiftsMoveOneBitIntoVF : Prop :=
  RowDecodes 0xF00F 0x8006 (fun w => .shr (xField w) (yField w)) ∧
  RowDecodes 0xF00F 0x800E (fun w => .shl (xField w) (yField w)) ∧
  ∀ (x : Reg) (s : State),
    (∃ t, (∀ y, exec (.shr x y) s = .next t) ∧ t.pc = s.pc + 2 ∧
      SameRegsBut s t (fun r => r = x ∨ r = regF) ∧ OnlyRegsPc s t ∧ SameMemory s t ∧
      (x ≠ regF → (t.getV x).toNat = (s.getV x).toNat / 2 ∧ (t.getV regF).toNat = (s.getV x).toNat % 2) ∧
      (x = regF → s.config.flagOrder = .tableOrder → (t.getV regF).toNat = 0) ∧
      (x = regF → s.config.flagOrder = .flagLast → (t.getV regF).toNat = (s.getV x).toNat % 2)) ∧
    (∃ t, (∀ y, exec (.shl x y) s = .next t) ∧ t.pc = s.pc + 2 ∧
      SameRegsBut s t (fun r => r = x ∨ r = regF) ∧ OnlyRegsPc s t ∧ SameMemory s t ∧
      (x ≠ regF → (t.getV x).toNat = 2 * (s.getV x).toNat % 256 ∧ (t.getV regF).toNat = (s.getV x).toNat / 128) ∧
      (x = regF → s.config.flagOrder = .tableOrder → (t.getV regF).toNat = 2 * ((s.getV x).toNat / 128)) ∧
      (x = regF → s.config.flagOrder = .flagLast → (t.getV regF).toNat = (s.getV x).toNat / 128))

/-- Where neither operand is VF, the five flag-writing ALU instructions do the same under both settings of FLAG_ORDER
(R127). -/
def Obligations.FlagOrderMattersOnlyForVF : Prop :=
  ∀ (x y : Reg) (s : State) (o o' : FlagOrder), x ≠ regF → y ≠ regF →
    ∀ i ∈ [Instr.addReg x y, .subReg x y, .shr x y, .subnReg x y, .shl x y],
      ∃ t, exec i (s.withOrder o) = .next t ∧ exec i (s.withOrder o') = .next (t.withOrder o')

/-- CXKK masks the byte of the next draw with KK, for whatever byte the oracle gives (R133); that the draws are numbered is
the model's own (assumption 5). -/
def Obligations.RandomByteIsMasked : Prop :=
  RowDecodes 0xF000 0xC000 (fun w => .rnd (xField w) (kkField w)) ∧
  ∀ (x : Reg) (kk : Byte) (s : State),
    (∃ t, exec (.rnd x kk) s = .next t ∧ t.getV x = Config.randomByte s.draws &&& kk ∧ t.draws = s.draws + 1 ∧
      t.pc = s.pc + 2 ∧ SameRegsBut s t (· = x) ∧ t = { s with v := t.v, pc := t.pc, draws := t.draws } ∧
      SameMemory s t ∧ (kk = 0 → t.getV x = 0)) ∧
    (∀ b : Byte, (s.storeRandom x kk b).getV x = b &&& kk)

/-! ### Index register and memory -/

/-- R151-R153: ANNN, FX1E (mod 65536) and FX29 (five times the unmasked V[X]) write I only; VF is unchanged
(the 16-bit wrap is the spec's own decision D7, the unmasked formula its own derivation). -/
def Obligations.IndexInstructionsWriteOnlyI : Prop :=
  RowDecodes 0xF000 0xA000 (fun w => .ldI (nnnField w)) ∧
  RowDecodes 0xF0FF 0xF01E (fun w => .addI (xField w)) ∧
  RowDecodes 0xF0FF 0xF029 (fun w => .ldF (xField w)) ∧
  ∀ (x : Reg) (nnn : Addr12) (s : State),
    (∃ t, exec (.ldI nnn) s = .next t ∧ t.i.toNat = nnn.toNat ∧ t.pc = s.pc + 2 ∧ OnlyIndexPc s t ∧ SameMemory s t) ∧
    (∃ t, exec (.addI x) s = .next t ∧ t.i.toNat = (s.i.toNat + (s.getV x).toNat) % 65536 ∧ t.pc = s.pc + 2 ∧
      OnlyIndexPc s t ∧ SameMemory s t) ∧
    (∃ t, exec (.ldF x) s = .next t ∧ t.i.toNat = (s.getV x).toNat * 5 ∧ t.pc = s.pc + 2 ∧ OnlyIndexPc s t ∧
      SameMemory s t)

/-- R154: FX33 stores the hundreds, tens and units of V[X] at I, I + 1 and I + 2 and nowhere else, or raises
MemoryOutOfRange with the lowest of the three above 0xFFF (the fault is the spec's own decision D4). -/
def Obligations.DecimalDigitsAreStored : Prop :=
  RowDecodes 0xF0FF 0xF033 (fun w => .ldB (xField w)) ∧
  ∀ (x : Reg) (s : State),
    (s.i.toNat + 2 ≤ 0xFFF → ∃ t, exec (.ldB x) s = .next t ∧
      (t.readByte s.indexBase).toNat = (s.getV x).toNat / 100 ∧
      (t.readByte (s.indexBase + 1)).toNat = (s.getV x).toNat / 10 % 10 ∧
      (t.readByte (s.indexBase + 2)).toNat = (s.getV x).toNat % 10 ∧
      (∀ a, a < s.indexBase ∨ s.indexBase + 3 ≤ a → t.readByte a = s.readByte a) ∧
      t.pc = s.pc + 2 ∧ OnlyMemoryPc s t) ∧
    (∀ k < 3, 0xFFF < s.i.toNat + k → (∀ j < 3, 0xFFF < s.i.toNat + j → k ≤ j) →
      exec (.ldB x) s =
        .next { s with fault := some (.memoryOutOfRange (encodeWord (.ldB x)) s.pc (s.i.toNat + k)) })

/-- R155: FX55 stores V0..VX at I..I + X and nowhere else, I unchanged, or raises MemoryOutOfRange with max(I, 0x1000)
(the fault and the unchanged I are the spec's own decisions D4, D15). -/
def Obligations.RegisterBlockIsStored : Prop :=
  RowDecodes 0xF0FF 0xF055 (fun w => .store (xField w)) ∧
  ∀ (x : Reg) (s : State),
    (s.i.toNat + x.val ≤ 0xFFF → ∃ t, exec (.store x) s = .next t ∧
      (∀ r : Reg, r ≤ x → t.readByte (s.indexBase + r.val) = s.getV r) ∧
      (∀ a, a < s.indexBase ∨ s.indexBase + x.val < a → t.readByte a = s.readByte a) ∧
      t.pc = s.pc + 2 ∧ OnlyMemoryPc s t) ∧
    (0xFFF < s.i.toNat + x.val →
      exec (.store x) s =
        .next { s with fault := some (.memoryOutOfRange (encodeWord (.store x)) s.pc (max s.i.toNat 0x1000)) })

/-- R156: FX65 loads V0..VX from I..I + X and no other register, I and memory unchanged, or raises MemoryOutOfRange with
max(I, 0x1000) (the fault and the unchanged I are the spec's own decisions D4, D15). -/
def Obligations.RegisterBlockIsLoaded : Prop :=
  RowDecodes 0xF0FF 0xF065 (fun w => .load (xField w)) ∧
  ∀ (x : Reg) (s : State),
    (s.i.toNat + x.val ≤ 0xFFF → ∃ t, exec (.load x) s = .next t ∧
      (∀ r : Reg, r ≤ x → t.getV r = s.readByte (s.i.toNat + r.val)) ∧ SameRegsBut s t (· ≤ x) ∧
      t.pc = s.pc + 2 ∧ OnlyRegsPc s t ∧ SameMemory s t) ∧
    (0xFFF < s.i.toNat + x.val →
      exec (.load x) s =
        .next { s with fault := some (.memoryOutOfRange (encodeWord (.load x)) s.pc (max s.i.toNat 0x1000)) })

/-- Loading a stored block from the same address gives the stored registers back, from any later state that kept I and
memory (R155, R156). -/
def Obligations.StoreThenLoadRestoresRegisters : Prop :=
  ∀ (x : Reg) (s t u : State), InRange s (x.val + 1) → exec (.store x) s = .next t →
    u.mem = t.mem → u.i = t.i → u.config = t.config →
    ∃ w, exec (.load x) u = .next w ∧ ∀ r : Reg, r ≤ x → w.getV r = s.getV r

/-- An opcode stored over the next instruction is the one fetched next: self-modifying code takes effect at once
(R62, R273, the spec's own derivation). -/
def Obligations.StoredOpcodeIsFetchedNext : Prop :=
  ∀ (x : Reg) (s : State), 1 ≤ x.val → s.i.toNat = s.pc.toNat + 2 → InRange s (x.val + 1) →
    ∃ t, exec (.store x) s = .next t ∧ t.fetchWord = s.getV 0 ++ s.getV 1

/-! ### Display -/

/-- R170: 00E0 clears every pixel and sets draw_flag (the flag is the spec's own decision D11). -/
def Obligations.ClearBlanksAndFlags : Prop :=
  RowDecodes 0xFFFF 0x00E0 (fun _ => .cls) ∧
  ∀ s : State, ∃ t, exec .cls s = .next t ∧ (∀ px < 64, ∀ py < 32, ¬ pixelAt t px py) ∧ t.drawFlag = true ∧
    t.pc = s.pc + 2 ∧ t = { s with gfx := t.gfx, drawFlag := t.drawFlag, pc := t.pc } ∧ SameMemory s t

/-- R173: DXYN inverts exactly the pixels the sprite covers, each coordinate wrapping on its own; VF is 1 when one of them
was set and 0 otherwise; draw_flag is set. A sprite byte above 0xFFF raises MemoryOutOfRange and nothing is drawn.
(Geometry, bit order and wrapping are the spec's own decision D10, the fault D4.) -/
def Obligations.DrawXorsSpriteWithCollision : Prop :=
  RowDecodes 0xF000 0xD000 (fun w => .drw (xField w) (yField w) (nField w).toNat) ∧
  ∀ (x y : Reg) (n : Nat) (s : State), n < 16 →
    let covers := SpriteCovers s (s.getV x).toNat (s.getV y).toNat n
    (InRange s n → ∃ t, exec (.drw x y n) s = .next t ∧
      (∀ px < 64, ∀ py < 32, pixelAt t px py ↔ ¬ (pixelAt s px py ↔ covers px py)) ∧
      ((∃ px < 64, ∃ py < 32, pixelAt s px py ∧ covers px py) → t.getV regF = 1) ∧
      ((∀ px < 64, ∀ py < 32, pixelAt s px py → ¬ covers px py) → t.getV regF = 0) ∧
      t.drawFlag = true ∧ t.pc = s.pc + 2 ∧ SameRegsBut s t (· = regF) ∧ OnlyDisplayRegsPc s t ∧ SameMemory s t) ∧
    (¬ InRange s n →
      exec (.drw x y n) s =
        .next { s with fault := some (.memoryOutOfRange (encodeWord (.drw x y n)) s.pc (max s.i.toNat 0x1000)) })

/-- Drawing a sprite twice at the same place restores the display; on a display that was blank, the second draw reports a
collision exactly when the sprite has a set bit (R173). -/
def Obligations.DrawingTwiceRestoresDisplay : Prop :=
  ∀ (x y : Reg) (n : Nat) (s : State), x ≠ regF → y ≠ regF → n < 16 → InRange s n →
    ∃ t u, exec (.drw x y n) s = .next t ∧ exec (.drw x y n) t = .next u ∧ u.gfx = s.gfx ∧
      (s.gfx = 0 → (u.getV regF = 1 ↔ ∃ r < n, s.readByte (s.i.toNat + r) ≠ 0))

/-! ### Keys and timers -/

/-- R191-R193: a key skip tests the level of key V[X], and raises KeyIndexOutOfRange for V[X] above 0xF (the
fault is the spec's own decision D13). -/
def Obligations.KeySkipsTestTheLevel : Prop :=
  RowDecodes 0xF0FF 0xE09E (fun w => .skp (xField w)) ∧
  RowDecodes 0xF0FF 0xE0A1 (fun w => .sknp (xField w)) ∧
  ∀ (x : Reg) (s : State),
    (∀ k : Reg, (s.getV x).toNat = k.val →
      (∃ t, exec (.skp x) s = .next t ∧ t.pc = s.pc + (if s.keys.get k = true then 4 else 2) ∧ OnlyPc s t ∧
        SameMemory s t) ∧
      (∃ t, exec (.sknp x) s = .next t ∧ t.pc = s.pc + (if s.keys.get k = false then 4 else 2) ∧ OnlyPc s t ∧
        SameMemory s t)) ∧
    (0x0F < (s.getV x).toNat →
      exec (.skp x) s = .next { s with fault := some (.keyIndexOutOfRange (encodeWord (.skp x)) s.pc (s.getV x)) } ∧
      exec (.sknp x) s = .next { s with fault := some (.keyIndexOutOfRange (encodeWord (.sknp x)) s.pc (s.getV x)) })

/-- FX07 copies DT to V[X], FX15 copies V[X] to DT, FX18 copies V[X] to ST, and each changes nothing else but pc (R194,
R196, R197). -/
def Obligations.TimerAccessCopiesOneByte : Prop :=
  RowDecodes 0xF0FF 0xF007 (fun w => .ldVxDT (xField w)) ∧
  RowDecodes 0xF0FF 0xF015 (fun w => .ldDTVx (xField w)) ∧
  RowDecodes 0xF0FF 0xF018 (fun w => .ldSTVx (xField w)) ∧
  ∀ (x : Reg) (s : State),
    (∃ t, exec (.ldVxDT x) s = .next t ∧ t.getV x = s.dt ∧ t.pc = s.pc + 2 ∧ SameRegsBut s t (· = x) ∧ OnlyRegsPc s t ∧
      SameMemory s t) ∧
    (∃ t, exec (.ldDTVx x) s = .next t ∧ t.dt = s.getV x ∧ t.pc = s.pc + 2 ∧ t = { s with dt := t.dt, pc := t.pc } ∧
      SameMemory s t) ∧
    (∃ t, exec (.ldSTVx x) s = .next t ∧ t.st = s.getV x ∧ t.pc = s.pc + 2 ∧ t = { s with st := t.st, pc := t.pc } ∧
      SameMemory s t)

/-- R195: FX0A stores the highest key that is down and moves on; with no key down it enters the wait and pc stays
(level-sensitive by the spec's own decision D12). -/
def Obligations.KeyInstructionTakesHighestOrWaits : Prop :=
  RowDecodes 0xF0FF 0xF00A (fun w => .ldVxK (xField w)) ∧
  ∀ (x : Reg) (s : State), s.wait = none →
    (∀ k, IsHighestKey s k → ∃ t, exec (.ldVxK x) s = .next t ∧ (t.getV x).toNat = k.val ∧ t.pc = s.pc + 2 ∧
      SameRegsBut s t (· = x) ∧ OnlyRegsPc s t ∧ SameMemory s t) ∧
    (NoKeyDown s → exec (.ldVxK x) s = .next { s with wait := some x })

/-- A tick lowers each timer that is above zero by one, changes nothing else, and beeps exactly when ST was 1 (R235, R236);
it runs in a wait and after a fault too (R239, the spec's own decision D25). The operation exists only with
TIMERS_ON_CYCLE false (R237, the spec's own decision D2); that a call of it is refused otherwise is the model's choice
(assumption 11). -/
def Obligations.TickLowersTimersAndBeepsAtOne : Prop :=
  ∀ s : State,
    (s.config.timersOnCycle = false →
      ∃ (t : State) (beep : Bool), Operation.tickTimers.onState s = .next (.running t, .tick beep) ∧
        (beep = true ↔ s.st.toNat = 1) ∧
        t.dt.toNat = s.dt.toNat - 1 ∧ t.st.toNat = s.st.toNat - 1 ∧ t = { s with dt := t.dt, st := t.st }) ∧
    (s.config.timersOnCycle = true →
      Operation.tickTimers.onState s = .refused .noSeparateTick ∧ (Block.running s).after .tickTimers = .running s)

/-! ### The block's interface -/

/-- R260: reset sets every state element to its reset value, from any state; and the first reset of a block under the
default parameters gives `State.reset`. (That it clears `wait` and `fault` is the spec's own decision D22.) -/
def Obligations.ResetSetsEveryElement : Prop :=
  (∀ s : State, ∃ t, Operation.reset.onState s = .next (.running t, .done) ∧
    (∀ (a : Nat) (h : a < 80), t.readByte a = s.config.font[a]) ∧ (∀ a, 80 ≤ a → t.readByte a = 0) ∧
    (∀ r, t.getV r = 0) ∧ (∀ j, t.stack.get j = 0) ∧ (∀ k, t.keys.get k = false) ∧
    t.i = 0 ∧ t.sp = 0 ∧ t.dt = 0 ∧ t.st = 0 ∧ (∀ px < 64, ∀ py < 32, ¬ pixelAt t px py) ∧
    t.pc = 0x0200 ∧ t.drawFlag = false ∧ t.wait = none ∧ t.fault = none) ∧
  Operation.reset.onFresh defaultConfig = .next (.running State.reset, .done)

/-- R262: after a reset the program area is zero, and the first cycle raises UnknownOpcode with opcode 0x0000 at 0x0200
(the spec's own derivation). -/
def Obligations.CycleAfterResetIsUnknownOpcode : Prop :=
  ∀ s : State, (∀ a, 0x200 ≤ a → a ≤ 0xFFF → s.afterReset.readByte a = 0) ∧
    step s.afterReset = .next { s.afterReset with fault := some (.unknownOpcode 0x0000 0x0200) }

/-- load_program copies its bytes to 0x200 on (R266) and changes nothing else, in any state (R268, the spec's own decision
D21); more than 3584 bytes are rejected and the block stays as it was (R222, R267). That the error is the outcome
`.fault .programTooLarge` of the operation is the model's choice (assumption 10). -/
def Obligations.LoadProgramCopiesOrRejects : Prop :=
  ∀ (s : State) (bytes : List Byte),
    (bytes.length ≤ 3584 → ∃ t, (Operation.loadProgram bytes).onState s = .next (.running t, .done) ∧
      (∀ (j : Nat) (h : j < bytes.length), t.readByte (0x200 + j) = bytes[j]) ∧
      (∀ a, a < 0x200 ∨ 0x200 + bytes.length ≤ a → t.readByte a = s.readByte a) ∧
      t = { s with mem := t.mem }) ∧
    (3584 < bytes.length → (Operation.loadProgram bytes).onState s = .fault .programTooLarge ∧
      (Block.running s).after (.loadProgram bytes) = .running s)

/-- R242, R243: clear_draw_flag clears draw_flag only; set_key writes the one slot k, and a key above 0xF is refused
(the spec's own decisions D20, D19). -/
def Obligations.KeyAndFlagOperationsWriteOneElement : Prop :=
  ∀ s : State,
    (∃ t, Operation.clearDrawFlag.onState s = .next (.running t, .done) ∧ t.drawFlag = false ∧
      t = { s with drawFlag := t.drawFlag }) ∧
    (∀ (k : Nat) (down : Bool),
      (k < 16 → ∃ t, (Operation.setKey k down).onState s = .next (.running t, .done) ∧
        (∀ j : Reg, t.keys.get j = if j.val = k then down else s.keys.get j) ∧ t = { s with keys := t.keys }) ∧
      (16 ≤ k → (Operation.setKey k down).onState s = .refused .noSuchKey))

/-- R39: before the first reset every operation but `reset` is refused and changes nothing, under any schedule without a
reset; a reset starts the machine (the spec's own decision D26). -/
def Obligations.NothingRunsBeforeFirstReset : Prop :=
  (∀ (c : Config) (schedule : List Operation), (∀ op ∈ schedule, op ≠ .reset) →
    (Block.beforeReset c).run schedule = .beforeReset c) ∧
  (∀ (c : Config) (op : Operation), op ≠ .reset → op.perform (.beforeReset c) = .refused .beforeFirstReset) ∧
  ∀ c : Config, Operation.reset.perform (.beforeReset c) = .next (.running (State.resetWith c 0), .done)

/-! ### Rules of the whole machine -/

/-- No instruction writes a V register but its named destination, the block of FX65, and VF in the six instructions that
have it as a side effect (R21, R22). -/
def Obligations.RegistersHaveNoOtherWriter : Prop :=
  ∀ (i : Instr) (s t : State) (r : Reg), exec i s = .next t → writesReg i r = false → t.getV r = s.getV r

/-- An instruction writes I, sp, the stack, memory, gfx, draw_flag, DT, ST, wait and the keys only where the spec names it
as their writer (R20, R24, R26, R27, R31, R32, R33, R174, R238), and never clears draw_flag. That CXKK alone moves the draw
counter and that no instruction writes the parameters are the model's choices, on fields of its own (assumptions 5 and 1).
pc and fault have no clause here: `FaultsArePrecise` and `RaisedFaultNamesItsCause` speak of fault. -/
def Obligations.StateElementsHaveNoOtherWriter : Prop :=
  ∀ (i : Instr) (s t : State), exec i s = .next t →
    (t.i ≠ s.i → (∃ nnn, i = .ldI nnn) ∨ (∃ x, i = .addI x) ∨ ∃ x, i = .ldF x) ∧
    (t.sp ≠ s.sp → i = .ret ∨ ∃ nnn, i = .call nnn) ∧
    (t.stack ≠ s.stack → ∃ nnn, i = .call nnn) ∧
    (t.mem ≠ s.mem → (∃ x, i = .ldB x) ∨ ∃ x, i = .store x) ∧
    (t.gfx ≠ s.gfx → i = .cls ∨ ∃ x y n, i = .drw x y n) ∧
    (t.drawFlag ≠ s.drawFlag → t.drawFlag = true ∧ (i = .cls ∨ ∃ x y n, i = .drw x y n)) ∧
    (t.dt ≠ s.dt → ∃ x, i = .ldDTVx x) ∧
    (t.st ≠ s.st → ∃ x, i = .ldSTVx x) ∧
    (t.wait ≠ s.wait → ∃ x, i = .ldVxK x) ∧
    (t.draws ≠ s.draws → ∃ x kk, i = .rnd x kk) ∧
    t.keys = s.keys ∧ t.config = s.config

/-- The keys reach only EX9E, EXA1 and FX0A: every other instruction does the same whatever the keys are (R32). -/
def Obligations.KeysReachOnlyKeyInstructions : Prop :=
  ∀ (i : Instr) (s : State) (ks : Vector Bool 16),
    (∀ x, i ≠ .skp x) → (∀ x, i ≠ .sknp x) → (∀ x, i ≠ .ldVxK x) →
    exec i { s with keys := ks } = mapNext (fun t => { t with keys := ks }) (exec i s)

/-- No instruction reads ST or draw_flag: two states that differ in these alone give states that differ in these alone
(R29, R31). -/
def Obligations.SoundTimerAndDrawFlagAreNeverRead : Prop :=
  ∀ (i : Instr) (s : State) (b : Byte) (d : Bool),
    mapNext (fun t => { t with st := 0, drawFlag := false }) (exec i { s with st := b, drawFlag := d }) =
      mapNext (fun t => { t with st := 0, drawFlag := false }) (exec i s)

/-! ### The invariant -/

/-- `State.reset` has the invariant. -/
def Obligations.InvariantAtReset : Prop := State.reset.Inv

/-- Every cycle keeps the invariant: memory in canonical form inside 0x000-0xFFF, and a recorded fault that stays truthful
with no key awaited (R57, R58, R221, R223). -/
def Obligations.StepKeepsInvariant : Prop :=
  ∀ s t : State, s.Inv → step s = .next t → t.Inv

/-- Every schedule of interface operations keeps the invariant, from any block that has it (R6, R225, R275). -/
def Obligations.EveryScheduleKeepsInvariant : Prop :=
  ∀ (b : Block) (schedule : List Operation), b.Inv → (b.run schedule).Inv
end

