-- ==== Sys2Proof/Laws/Decode.lean ====
section
/-! SUPPORT. The fields of an encoded opcode, and fields read through a mask. -/

namespace Sys2Proof

@[simp] theorem regOfNibble_nibbleOfReg (r : Reg) : regOfNibble (nibbleOfReg r) = r := by
  revert r; decide

@[simp] theorem nibbleOfReg_regOfNibble (b : Nibble) : nibbleOfReg (regOfNibble b) = b := by
  revert b; decide

/-! ### Fields of an encoded word -/

theorem getLsbD_encodeNNN (op : Nibble) (nnn : Addr12) (i : Nat) :
    (encodeNNN op nnn).getLsbD i = if i < 12 then nnn.getLsbD i else op.getLsbD (i - 12) :=
  BitVec.getLsbD_append

theorem getLsbD_encodeXKK (op : Nibble) (x : Reg) (kk : Byte) (i : Nat) :
    (encodeXKK op x kk).getLsbD i =
      if i < 12 then (if i < 8 then kk.getLsbD i else (nibbleOfReg x).getLsbD (i - 8)) else op.getLsbD (i - 12) := by
  rw [encodeXKK, ← encodeNNN, getLsbD_encodeNNN]
  congr 1
  exact BitVec.getLsbD_append

theorem getLsbD_encodeXYN (op : Nibble) (x y : Reg) (n : Nibble) (i : Nat) :
    (encodeXYN op x y n).getLsbD i =
      if i < 12 then
        (if i < 8 then (if i < 4 then n.getLsbD i else (nibbleOfReg y).getLsbD (i - 4))
         else (nibbleOfReg x).getLsbD (i - 8))
      else op.getLsbD (i - 12) := by
  rw [encodeXYN, ← encodeXKK, getLsbD_encodeXKK]
  congr 2
  exact BitVec.getLsbD_append

@[simp] theorem opField_encodeNNN (op : Nibble) (nnn : Addr12) : opField (encodeNNN op nnn) = op := by
  refine BitVec.eq_of_getLsbD_eq fun i hi => ?_
  rw [opField, BitVec.getLsbD_extractLsb', getLsbD_encodeNNN, if_neg (by omega), show 12 + i - 12 = i by omega]
  simp [hi]

@[simp] theorem nnnField_encodeNNN (op : Nibble) (nnn : Addr12) : nnnField (encodeNNN op nnn) = nnn := by
  refine BitVec.eq_of_getLsbD_eq fun i hi => ?_
  rw [nnnField, BitVec.getLsbD_extractLsb', getLsbD_encodeNNN, if_pos (by omega), Nat.zero_add]
  simp [hi]

@[simp] theorem opField_encodeXKK (op : Nibble) (x : Reg) (kk : Byte) : opField (encodeXKK op x kk) = op :=
  opField_encodeNNN op _

@[simp] theorem xField_encodeXKK (op : Nibble) (x : Reg) (kk : Byte) : xField (encodeXKK op x kk) = x := by
  have : xNibble (encodeXKK op x kk) = nibbleOfReg x := by
    refine BitVec.eq_of_getLsbD_eq fun i hi => ?_
    rw [xNibble, BitVec.getLsbD_extractLsb', getLsbD_encodeXKK, if_pos (by omega), if_neg (by omega),
      show 8 + i - 8 = i by omega]
    simp [hi]
  rw [xField, this, regOfNibble_nibbleOfReg]

@[simp] theorem kkField_encodeXKK (op : Nibble) (x : Reg) (kk : Byte) : kkField (encodeXKK op x kk) = kk := by
  refine BitVec.eq_of_getLsbD_eq fun i hi => ?_
  rw [kkField, BitVec.getLsbD_extractLsb', getLsbD_encodeXKK, if_pos (by omega), if_pos (by omega), Nat.zero_add]
  simp [hi]

@[simp] theorem opField_encodeXYN (op : Nibble) (x y : Reg) (n : Nibble) : opField (encodeXYN op x y n) = op :=
  opField_encodeNNN op _

@[simp] theorem xField_encodeXYN (op : Nibble) (x y : Reg) (n : Nibble) : xField (encodeXYN op x y n) = x :=
  xField_encodeXKK op x _

@[simp] theorem yField_encodeXYN (op : Nibble) (x y : Reg) (n : Nibble) : yField (encodeXYN op x y n) = y := by
  have : yNibble (encodeXYN op x y n) = nibbleOfReg y := by
    refine BitVec.eq_of_getLsbD_eq fun i hi => ?_
    rw [yNibble, BitVec.getLsbD_extractLsb', getLsbD_encodeXYN, if_pos (by omega), if_pos (by omega),
      if_neg (by omega), show 4 + i - 4 = i by omega]
    simp [hi]
  rw [yField, this, regOfNibble_nibbleOfReg]

@[simp] theorem nField_encodeXYN (op : Nibble) (x y : Reg) (n : Nibble) : nField (encodeXYN op x y n) = n := by
  refine BitVec.eq_of_getLsbD_eq fun i hi => ?_
  rw [nField, BitVec.getLsbD_extractLsb', getLsbD_encodeXYN, if_pos (by omega), if_pos (by omega),
    if_pos (by omega), Nat.zero_add]
  simp [hi]

/-! ### A word from its fields -/

theorem encodeNNN_fields (w : Word) : encodeNNN (opField w) (nnnField w) = w := by
  simp only [opField, nnnField, encodeNNN]; ext i hi
  simp only [BitVec.getElem_append, BitVec.getElem_extractLsb']
  split
  · rename_i h; simp [hi]
  · rename_i h; rw [show 12 + (i - 12) = i by omega]; simp [hi]

theorem encodeXKK_fields (w : Word) : encodeXKK (opField w) (xField w) (kkField w) = w := by
  have : nibbleOfReg (xField w) ++ kkField w = nnnField w := by
    rw [xField, nibbleOfReg_regOfNibble]
    simp only [xNibble, kkField, nnnField]; ext i hi
    simp only [BitVec.getElem_append, BitVec.getElem_extractLsb']
    split
    · rfl
    · rw [show 8 + (i - 8) = 0 + i by omega]
  rw [encodeXKK, this, ← encodeNNN, encodeNNN_fields]

theorem encodeXYN_fields (w : Word) : encodeXYN (opField w) (xField w) (yField w) (nField w) = w := by
  have : nibbleOfReg (yField w) ++ nField w = kkField w := by
    rw [yField, nibbleOfReg_regOfNibble]
    simp only [yNibble, kkField, nField]; ext i hi
    simp only [BitVec.getElem_append, BitVec.getElem_extractLsb']
    split
    · rfl
    · rw [show 4 + (i - 4) = 0 + i by omega]
  rw [encodeXYN, this, ← encodeXKK, encodeXKK_fields]

/-! ### Bytes -/

@[simp] theorem wordOfBytes_bytes (w : Word) : wordOfBytes (w.extractLsb' 8 8) (w.extractLsb' 0 8) = w := by
  simp only [wordOfBytes]; ext i hi
  simp only [BitVec.getElem_append, BitVec.getElem_extractLsb']
  split
  · simp [hi]
  · rw [show 8 + (i - 8) = i by omega]; simp [hi]

/-- Decoding the two bytes of a word is decoding the word (R54, R70). -/
theorem decode_bytesOfWord (w : Word) (rest : List Byte) :
    decode (bytesOfWord w ++ rest) =
      match decodeWord w with
      | some i => .ok (i, rest)
      | none => .error (.unknownOpcode w) := by
  cases h : decodeWord w <;> simp [bytesOfWord, decode, h]

/-! ### Fields through a mask -/

theorem opField_of_mask {w mask pattern : Word} (h : w &&& mask = pattern) (hm : opField mask = 0xF#4) :
    opField w = opField pattern := by
  rw [← h]
  simp only [opField] at hm ⊢
  rw [BitVec.extractLsb'_and, hm]
  exact (BitVec.and_allOnes (w := 4)).symm

theorem nField_of_mask {w mask pattern : Word} (h : w &&& mask = pattern) (hm : nField mask = 0xF#4) :
    nField w = nField pattern := by
  rw [← h]
  simp only [nField] at hm ⊢
  rw [BitVec.extractLsb'_and, hm]
  exact (BitVec.and_allOnes (w := 4)).symm

theorem kkField_of_mask {w mask pattern : Word} (h : w &&& mask = pattern) (hm : kkField mask = 0xFF#8) :
    kkField w = kkField pattern := by
  rw [← h]
  simp only [kkField] at hm ⊢
  rw [BitVec.extractLsb'_and, hm]
  exact (BitVec.and_allOnes (w := 8)).symm

end Sys2Proof
end

