-- ==== Sys2Proof/Laws/Memory.lean ====
section
/-! SUPPORT. What memory reads after a write, and that every memory operation keeps the canonical form. -/

namespace Sys2Proof.Machine

variable (font : Font)

theorem Memory.read_drop (m : Memory) (a b : Nat) :
    Memory.read font (Memory.drop m a) b = if b = a then Memory.unlisted font a else Memory.read font m b := by
  induction m with
  | nil => simp only [Memory.drop, List.filter_nil, Memory.read]; split <;> simp_all
  | cons c m ih =>
    unfold Memory.drop at ih ⊢
    by_cases hc : c.1 = a
    · simp only [hc, bne_self_eq_false, Bool.false_eq_true, not_false_eq_true, List.filter_cons_of_neg, ih, Memory.read]
      grind
    · have : (c.1 != a) = true := by simpa using hc
      simp only [this, List.filter_cons_of_pos, Memory.read, ih]
      grind

theorem Memory.read_place (m : Memory) (a : Nat) (v : Byte) (b : Nat) :
    Memory.read font (Memory.place a v m) b = if b = a then v else Memory.read font m b := by
  induction m with
  | nil => simp only [Memory.place, Memory.read]; grind
  | cons c m ih =>
    simp only [Memory.place]
    split
    · simp only [Memory.read, ih]; grind
    · simp only [Memory.read]; grind

/-- A write is read back at its own address and nowhere else. -/
theorem Memory.read_write (m : Memory) (a : Nat) (v : Byte) (b : Nat) :
    Memory.read font (Memory.write font m a v) b = if b = a then v else Memory.read font m b := by
  unfold Memory.write
  split
  · rename_i h; rw [Memory.read_drop, h]
  · rw [Memory.read_place, Memory.read_drop]; grind

/-- A block written from `a` on is read back byte by byte, and every other address reads as before. -/
theorem Memory.read_writeBlock (m : Memory) (a : Nat) (bs : List Byte) (b : Nat) :
    Memory.read font (Memory.writeBlock font m a bs) b =
      if h : a ≤ b ∧ b < a + bs.length then bs[b - a]'(by omega) else Memory.read font m b := by
  induction bs generalizing m a with
  | nil => simp [Memory.writeBlock]
  | cons v vs ih =>
    simp only [Memory.writeBlock, ih, Memory.read_write, List.length_cons]
    by_cases h1 : a + 1 ≤ b ∧ b < a + 1 + vs.length
    · rw [dif_pos h1, dif_pos (by omega)]
      have : b - a = (b - (a + 1)) + 1 := by omega
      simp [this]
    · rw [dif_neg h1]
      by_cases h2 : b = a
      · subst h2; simp
      · rw [if_neg h2, dif_neg (by omega)]

theorem Memory.read_writeBlock_outside (m : Memory) (a : Nat) (bs : List Byte) (b : Nat)
    (h : b < a ∨ a + bs.length ≤ b) :
    Memory.read font (Memory.writeBlock font m a bs) b = Memory.read font m b := by
  rw [Memory.read_writeBlock, dif_neg (by omega)]

@[simp] theorem Memory.length_readBlock (m : Memory) (a n : Nat) : (Memory.readBlock font m a n).length = n := by
  simp [Memory.readBlock]

@[simp] theorem Memory.getElem_readBlock (m : Memory) (a n k : Nat) (h : k < (Memory.readBlock font m a n).length) :
    (Memory.readBlock font m a n)[k] = Memory.read font m (a + k) := by
  simp [Memory.readBlock]

/-! ### The canonical form -/

theorem Memory.mem_place {m : Memory} {a : Nat} {v : Byte} {c : Host.Cell} :
    c ∈ Memory.place a v m → c = (a, v) ∨ c ∈ m := by
  induction m with
  | nil => simp [Memory.place]
  | cons d m ih =>
    simp only [Memory.place]
    split
    · simp only [List.mem_cons]; rintro (h | h)
      · exact .inr (.inl h)
      · exact (ih h).imp_right .inr
    · simp only [List.mem_cons]; exact id

theorem Memory.place_sorted {m : Memory} {a : Nat} {v : Byte} (hm : m.Pairwise fun c d => c.1 < d.1)
    (ha : ∀ c ∈ m, c.1 ≠ a) : (Memory.place a v m).Pairwise fun c d => c.1 < d.1 := by
  induction m with
  | nil => simp [Memory.place]
  | cons d m ih =>
    rw [List.pairwise_cons] at hm
    simp only [Memory.place]
    split
    · rename_i hd
      refine List.pairwise_cons.2 ⟨fun c hc => ?_, ih hm.2 fun c hc => ha c (List.mem_cons_of_mem _ hc)⟩
      rcases Memory.mem_place hc with rfl | hc
      · exact hd
      · exact hm.1 c hc
    · rename_i hd
      have hda : a < d.1 := by have := ha d List.mem_cons_self; omega
      refine List.pairwise_cons.2 ⟨fun c hc => ?_, List.pairwise_cons.2 hm⟩
      rcases List.mem_cons.1 hc with rfl | hc
      · exact hda
      · exact hda.trans (hm.1 c hc)

theorem Memory.drop_wf {m : Memory} (h : Memory.wf font m) (a : Nat) : Memory.wf font (Memory.drop m a) :=
  ⟨h.1.filter _, fun c hc => h.2 c (List.mem_of_mem_filter hc)⟩

/-- A write inside the address space keeps the canonical form. -/
theorem Memory.write_wf {m : Memory} (h : Memory.wf font m) {a : Nat} (ha : a < 4096) (v : Byte) :
    Memory.wf font (Memory.write font m a v) := by
  unfold Memory.write
  split
  · exact Memory.drop_wf font h a
  · rename_i hv
    have hd := Memory.drop_wf font h a
    refine ⟨Memory.place_sorted hd.1 fun c hc => ?_, fun c hc => ?_⟩
    · simpa using (List.mem_filter.1 hc).2
    · rcases Memory.mem_place hc with rfl | hc
      · exact ⟨ha, hv⟩
      · exact hd.2 c hc

/-- A block written inside the address space keeps the canonical form. -/
theorem Memory.writeBlock_wf {m : Memory} (h : Memory.wf font m) {a : Nat} {bs : List Byte}
    (ha : bs = [] ∨ a + bs.length ≤ 4096) : Memory.wf font (Memory.writeBlock font m a bs) := by
  induction bs generalizing m a with
  | nil => exact h
  | cons v vs ih =>
    simp only [List.length_cons, reduceCtorEq, false_or] at ha
    exact ih (Memory.write_wf font h (by omega) v) (.inr (by omega))

theorem Memory.nil_wf : Memory.wf font [] := ⟨.nil, by simp⟩

/-! ### The bounds rule (R57) -/

/-- No address of the block is above 0xFFF exactly when the check passes. -/
theorem outOfRange_eq_none_iff (a n : Nat) : outOfRange a n = none ↔ ∀ k < n, a + k ≤ 0xFFF := by
  unfold outOfRange
  split
  · rename_i h
    simp only [reduceCtorEq, false_iff, not_forall]
    exact ⟨n - 1, by omega, by omega⟩
  · simp only [true_iff]
    intro k hk; omega

/-- The address the check reports is the lowest of the block above 0xFFF. -/
theorem outOfRange_eq_some_iff (a n b : Nat) :
    outOfRange a n = some b ↔ (∃ k < n, b = a + k) ∧ 0xFFF < b ∧ ∀ k < n, 0xFFF < a + k → b ≤ a + k := by
  unfold outOfRange
  split
  · rename_i h
    simp only [Option.some.injEq]
    constructor
    · rintro rfl
      refine ⟨⟨max a 0x1000 - a, by omega, by omega⟩, by omega, fun k hk h => by omega⟩
    · rintro ⟨⟨k, hk, rfl⟩, h1, h2⟩
      have := h2 (max a 0x1000 - a) (by omega) (by omega)
      omega
  · rename_i h
    simp only [reduceCtorEq, false_iff]
    rintro ⟨⟨k, hk, rfl⟩, h1, -⟩
    omega

theorem outOfRange_eq_some {a n b : Nat} (h : outOfRange a n = some b) : b = max a 0x1000 := by
  unfold outOfRange at h
  split at h <;> simp_all

end Sys2Proof.Machine
end

