-- ==== Sys2Proof/Laws/State.lean ====
section
/-! SUPPORT. One lemma per field per update of the state, so that no proof unfolds a record update. -/

namespace Sys2Proof.Machine

/-! ### `State.setV` -/

@[simp] theorem State.setV_i (s : State) (x : Reg) (b : Byte) :
    (s.setV x b).i = s.i := rfl

@[simp] theorem State.setV_pc (s : State) (x : Reg) (b : Byte) :
    (s.setV x b).pc = s.pc := rfl

@[simp] theorem State.setV_stack (s : State) (x : Reg) (b : Byte) :
    (s.setV x b).stack = s.stack := rfl

@[simp] theorem State.setV_sp (s : State) (x : Reg) (b : Byte) :
    (s.setV x b).sp = s.sp := rfl

@[simp] theorem State.setV_dt (s : State) (x : Reg) (b : Byte) :
    (s.setV x b).dt = s.dt := rfl

@[simp] theorem State.setV_st (s : State) (x : Reg) (b : Byte) :
    (s.setV x b).st = s.st := rfl

@[simp] theorem State.setV_gfx (s : State) (x : Reg) (b : Byte) :
    (s.setV x b).gfx = s.gfx := rfl

@[simp] theorem State.setV_drawFlag (s : State) (x : Reg) (b : Byte) :
    (s.setV x b).drawFlag = s.drawFlag := rfl

@[simp] theorem State.setV_keys (s : State) (x : Reg) (b : Byte) :
    (s.setV x b).keys = s.keys := rfl

@[simp] theorem State.setV_wait (s : State) (x : Reg) (b : Byte) :
    (s.setV x b).wait = s.wait := rfl

@[simp] theorem State.setV_fault (s : State) (x : Reg) (b : Byte) :
    (s.setV x b).fault = s.fault := rfl

@[simp] theorem State.setV_mem (s : State) (x : Reg) (b : Byte) :
    (s.setV x b).mem = s.mem := rfl

@[simp] theorem State.setV_config (s : State) (x : Reg) (b : Byte) :
    (s.setV x b).config = s.config := rfl

@[simp] theorem State.setV_draws (s : State) (x : Reg) (b : Byte) :
    (s.setV x b).draws = s.draws := rfl

/-! ### `State.setI` -/

@[simp] theorem State.setI_v (s : State) (w : Word) :
    (s.setI w).v = s.v := rfl

@[simp] theorem State.setI_i (s : State) (w : Word) :
    (s.setI w).i = w := rfl

@[simp] theorem State.setI_pc (s : State) (w : Word) :
    (s.setI w).pc = s.pc := rfl

@[simp] theorem State.setI_stack (s : State) (w : Word) :
    (s.setI w).stack = s.stack := rfl

@[simp] theorem State.setI_sp (s : State) (w : Word) :
    (s.setI w).sp = s.sp := rfl

@[simp] theorem State.setI_dt (s : State) (w : Word) :
    (s.setI w).dt = s.dt := rfl

@[simp] theorem State.setI_st (s : State) (w : Word) :
    (s.setI w).st = s.st := rfl

@[simp] theorem State.setI_gfx (s : State) (w : Word) :
    (s.setI w).gfx = s.gfx := rfl

@[simp] theorem State.setI_drawFlag (s : State) (w : Word) :
    (s.setI w).drawFlag = s.drawFlag := rfl

@[simp] theorem State.setI_keys (s : State) (w : Word) :
    (s.setI w).keys = s.keys := rfl

@[simp] theorem State.setI_wait (s : State) (w : Word) :
    (s.setI w).wait = s.wait := rfl

@[simp] theorem State.setI_fault (s : State) (w : Word) :
    (s.setI w).fault = s.fault := rfl

@[simp] theorem State.setI_mem (s : State) (w : Word) :
    (s.setI w).mem = s.mem := rfl

@[simp] theorem State.setI_config (s : State) (w : Word) :
    (s.setI w).config = s.config := rfl

@[simp] theorem State.setI_draws (s : State) (w : Word) :
    (s.setI w).draws = s.draws := rfl

/-! ### `State.jump` -/

@[simp] theorem State.jump_v (s : State) (w : Word) :
    (s.jump w).v = s.v := rfl

@[simp] theorem State.jump_i (s : State) (w : Word) :
    (s.jump w).i = s.i := rfl

@[simp] theorem State.jump_pc (s : State) (w : Word) :
    (s.jump w).pc = w := rfl

@[simp] theorem State.jump_stack (s : State) (w : Word) :
    (s.jump w).stack = s.stack := rfl

@[simp] theorem State.jump_sp (s : State) (w : Word) :
    (s.jump w).sp = s.sp := rfl

@[simp] theorem State.jump_dt (s : State) (w : Word) :
    (s.jump w).dt = s.dt := rfl

@[simp] theorem State.jump_st (s : State) (w : Word) :
    (s.jump w).st = s.st := rfl

@[simp] theorem State.jump_gfx (s : State) (w : Word) :
    (s.jump w).gfx = s.gfx := rfl

@[simp] theorem State.jump_drawFlag (s : State) (w : Word) :
    (s.jump w).drawFlag = s.drawFlag := rfl

@[simp] theorem State.jump_keys (s : State) (w : Word) :
    (s.jump w).keys = s.keys := rfl

@[simp] theorem State.jump_wait (s : State) (w : Word) :
    (s.jump w).wait = s.wait := rfl

@[simp] theorem State.jump_fault (s : State) (w : Word) :
    (s.jump w).fault = s.fault := rfl

@[simp] theorem State.jump_mem (s : State) (w : Word) :
    (s.jump w).mem = s.mem := rfl

@[simp] theorem State.jump_config (s : State) (w : Word) :
    (s.jump w).config = s.config := rfl

@[simp] theorem State.jump_draws (s : State) (w : Word) :
    (s.jump w).draws = s.draws := rfl

/-! ### `State.advance` -/

@[simp] theorem State.advance_v (s : State) :
    (s.advance).v = s.v := rfl

@[simp] theorem State.advance_i (s : State) :
    (s.advance).i = s.i := rfl

@[simp] theorem State.advance_pc (s : State) :
    (s.advance).pc = s.pc + 2#16 := rfl

@[simp] theorem State.advance_stack (s : State) :
    (s.advance).stack = s.stack := rfl

@[simp] theorem State.advance_sp (s : State) :
    (s.advance).sp = s.sp := rfl

@[simp] theorem State.advance_dt (s : State) :
    (s.advance).dt = s.dt := rfl

@[simp] theorem State.advance_st (s : State) :
    (s.advance).st = s.st := rfl

@[simp] theorem State.advance_gfx (s : State) :
    (s.advance).gfx = s.gfx := rfl

@[simp] theorem State.advance_drawFlag (s : State) :
    (s.advance).drawFlag = s.drawFlag := rfl

@[simp] theorem State.advance_keys (s : State) :
    (s.advance).keys = s.keys := rfl

@[simp] theorem State.advance_wait (s : State) :
    (s.advance).wait = s.wait := rfl

@[simp] theorem State.advance_fault (s : State) :
    (s.advance).fault = s.fault := rfl

@[simp] theorem State.advance_mem (s : State) :
    (s.advance).mem = s.mem := rfl

@[simp] theorem State.advance_config (s : State) :
    (s.advance).config = s.config := rfl

@[simp] theorem State.advance_draws (s : State) :
    (s.advance).draws = s.draws := rfl

/-! ### `State.skipIf` -/

@[simp] theorem State.skipIf_v (s : State) (c : Bool) :
    (s.skipIf c).v = s.v := rfl

@[simp] theorem State.skipIf_i (s : State) (c : Bool) :
    (s.skipIf c).i = s.i := rfl

@[simp] theorem State.skipIf_pc (s : State) (c : Bool) :
    (s.skipIf c).pc = if c then s.pc + 4#16 else s.pc + 2#16 := rfl

@[simp] theorem State.skipIf_stack (s : State) (c : Bool) :
    (s.skipIf c).stack = s.stack := rfl

@[simp] theorem State.skipIf_sp (s : State) (c : Bool) :
    (s.skipIf c).sp = s.sp := rfl

@[simp] theorem State.skipIf_dt (s : State) (c : Bool) :
    (s.skipIf c).dt = s.dt := rfl

@[simp] theorem State.skipIf_st (s : State) (c : Bool) :
    (s.skipIf c).st = s.st := rfl

@[simp] theorem State.skipIf_gfx (s : State) (c : Bool) :
    (s.skipIf c).gfx = s.gfx := rfl

@[simp] theorem State.skipIf_drawFlag (s : State) (c : Bool) :
    (s.skipIf c).drawFlag = s.drawFlag := rfl

@[simp] theorem State.skipIf_keys (s : State) (c : Bool) :
    (s.skipIf c).keys = s.keys := rfl

@[simp] theorem State.skipIf_wait (s : State) (c : Bool) :
    (s.skipIf c).wait = s.wait := rfl

@[simp] theorem State.skipIf_fault (s : State) (c : Bool) :
    (s.skipIf c).fault = s.fault := rfl

@[simp] theorem State.skipIf_mem (s : State) (c : Bool) :
    (s.skipIf c).mem = s.mem := rfl

@[simp] theorem State.skipIf_config (s : State) (c : Bool) :
    (s.skipIf c).config = s.config := rfl

@[simp] theorem State.skipIf_draws (s : State) (c : Bool) :
    (s.skipIf c).draws = s.draws := rfl

/-! ### `State.writeBlock` -/

@[simp] theorem State.writeBlock_v (s : State) (a : Nat) (bs : List Byte) :
    (s.writeBlock a bs).v = s.v := rfl

@[simp] theorem State.writeBlock_i (s : State) (a : Nat) (bs : List Byte) :
    (s.writeBlock a bs).i = s.i := rfl

@[simp] theorem State.writeBlock_pc (s : State) (a : Nat) (bs : List Byte) :
    (s.writeBlock a bs).pc = s.pc := rfl

@[simp] theorem State.writeBlock_stack (s : State) (a : Nat) (bs : List Byte) :
    (s.writeBlock a bs).stack = s.stack := rfl

@[simp] theorem State.writeBlock_sp (s : State) (a : Nat) (bs : List Byte) :
    (s.writeBlock a bs).sp = s.sp := rfl

@[simp] theorem State.writeBlock_dt (s : State) (a : Nat) (bs : List Byte) :
    (s.writeBlock a bs).dt = s.dt := rfl

@[simp] theorem State.writeBlock_st (s : State) (a : Nat) (bs : List Byte) :
    (s.writeBlock a bs).st = s.st := rfl

@[simp] theorem State.writeBlock_gfx (s : State) (a : Nat) (bs : List Byte) :
    (s.writeBlock a bs).gfx = s.gfx := rfl

@[simp] theorem State.writeBlock_drawFlag (s : State) (a : Nat) (bs : List Byte) :
    (s.writeBlock a bs).drawFlag = s.drawFlag := rfl

@[simp] theorem State.writeBlock_keys (s : State) (a : Nat) (bs : List Byte) :
    (s.writeBlock a bs).keys = s.keys := rfl

@[simp] theorem State.writeBlock_wait (s : State) (a : Nat) (bs : List Byte) :
    (s.writeBlock a bs).wait = s.wait := rfl

@[simp] theorem State.writeBlock_fault (s : State) (a : Nat) (bs : List Byte) :
    (s.writeBlock a bs).fault = s.fault := rfl

@[simp] theorem State.writeBlock_mem (s : State) (a : Nat) (bs : List Byte) :
    (s.writeBlock a bs).mem = Memory.writeBlock s.config.font s.mem a bs := rfl

@[simp] theorem State.writeBlock_config (s : State) (a : Nat) (bs : List Byte) :
    (s.writeBlock a bs).config = s.config := rfl

@[simp] theorem State.writeBlock_draws (s : State) (a : Nat) (bs : List Byte) :
    (s.writeBlock a bs).draws = s.draws := rfl

/-! ### `State.raise` -/

@[simp] theorem State.raise_v (s : State) (r : FaultRecord) :
    (s.raise r).v = s.v := rfl

@[simp] theorem State.raise_i (s : State) (r : FaultRecord) :
    (s.raise r).i = s.i := rfl

@[simp] theorem State.raise_pc (s : State) (r : FaultRecord) :
    (s.raise r).pc = s.pc := rfl

@[simp] theorem State.raise_stack (s : State) (r : FaultRecord) :
    (s.raise r).stack = s.stack := rfl

@[simp] theorem State.raise_sp (s : State) (r : FaultRecord) :
    (s.raise r).sp = s.sp := rfl

@[simp] theorem State.raise_dt (s : State) (r : FaultRecord) :
    (s.raise r).dt = s.dt := rfl

@[simp] theorem State.raise_st (s : State) (r : FaultRecord) :
    (s.raise r).st = s.st := rfl

@[simp] theorem State.raise_gfx (s : State) (r : FaultRecord) :
    (s.raise r).gfx = s.gfx := rfl

@[simp] theorem State.raise_drawFlag (s : State) (r : FaultRecord) :
    (s.raise r).drawFlag = s.drawFlag := rfl

@[simp] theorem State.raise_keys (s : State) (r : FaultRecord) :
    (s.raise r).keys = s.keys := rfl

@[simp] theorem State.raise_wait (s : State) (r : FaultRecord) :
    (s.raise r).wait = s.wait := rfl

@[simp] theorem State.raise_fault (s : State) (r : FaultRecord) :
    (s.raise r).fault = some r := rfl

@[simp] theorem State.raise_mem (s : State) (r : FaultRecord) :
    (s.raise r).mem = s.mem := rfl

@[simp] theorem State.raise_config (s : State) (r : FaultRecord) :
    (s.raise r).config = s.config := rfl

@[simp] theorem State.raise_draws (s : State) (r : FaultRecord) :
    (s.raise r).draws = s.draws := rfl

/-! ### `State.tick` -/

@[simp] theorem State.tick_v (s : State) :
    (s.tick).v = s.v := rfl

@[simp] theorem State.tick_i (s : State) :
    (s.tick).i = s.i := rfl

@[simp] theorem State.tick_pc (s : State) :
    (s.tick).pc = s.pc := rfl

@[simp] theorem State.tick_stack (s : State) :
    (s.tick).stack = s.stack := rfl

@[simp] theorem State.tick_sp (s : State) :
    (s.tick).sp = s.sp := rfl

@[simp] theorem State.tick_dt (s : State) :
    (s.tick).dt = timerTick s.dt := rfl

@[simp] theorem State.tick_st (s : State) :
    (s.tick).st = timerTick s.st := rfl

@[simp] theorem State.tick_gfx (s : State) :
    (s.tick).gfx = s.gfx := rfl

@[simp] theorem State.tick_drawFlag (s : State) :
    (s.tick).drawFlag = s.drawFlag := rfl

@[simp] theorem State.tick_keys (s : State) :
    (s.tick).keys = s.keys := rfl

@[simp] theorem State.tick_wait (s : State) :
    (s.tick).wait = s.wait := rfl

@[simp] theorem State.tick_fault (s : State) :
    (s.tick).fault = s.fault := rfl

@[simp] theorem State.tick_mem (s : State) :
    (s.tick).mem = s.mem := rfl

@[simp] theorem State.tick_config (s : State) :
    (s.tick).config = s.config := rfl

@[simp] theorem State.tick_draws (s : State) :
    (s.tick).draws = s.draws := rfl

/-! ### `State.takeKey` -/

@[simp] theorem State.takeKey_i (s : State) (x k : Reg) :
    (s.takeKey x k).i = s.i := rfl

@[simp] theorem State.takeKey_pc (s : State) (x k : Reg) :
    (s.takeKey x k).pc = s.pc + 2#16 := rfl

@[simp] theorem State.takeKey_stack (s : State) (x k : Reg) :
    (s.takeKey x k).stack = s.stack := rfl

@[simp] theorem State.takeKey_sp (s : State) (x k : Reg) :
    (s.takeKey x k).sp = s.sp := rfl

@[simp] theorem State.takeKey_dt (s : State) (x k : Reg) :
    (s.takeKey x k).dt = s.dt := rfl

@[simp] theorem State.takeKey_st (s : State) (x k : Reg) :
    (s.takeKey x k).st = s.st := rfl

@[simp] theorem State.takeKey_gfx (s : State) (x k : Reg) :
    (s.takeKey x k).gfx = s.gfx := rfl

@[simp] theorem State.takeKey_drawFlag (s : State) (x k : Reg) :
    (s.takeKey x k).drawFlag = s.drawFlag := rfl

@[simp] theorem State.takeKey_keys (s : State) (x k : Reg) :
    (s.takeKey x k).keys = s.keys := rfl

@[simp] theorem State.takeKey_wait (s : State) (x k : Reg) :
    (s.takeKey x k).wait = none := rfl

@[simp] theorem State.takeKey_fault (s : State) (x k : Reg) :
    (s.takeKey x k).fault = s.fault := rfl

@[simp] theorem State.takeKey_mem (s : State) (x k : Reg) :
    (s.takeKey x k).mem = s.mem := rfl

@[simp] theorem State.takeKey_config (s : State) (x k : Reg) :
    (s.takeKey x k).config = s.config := rfl

@[simp] theorem State.takeKey_draws (s : State) (x k : Reg) :
    (s.takeKey x k).draws = s.draws := rfl

/-! ### `State.loadRegs` -/

@[simp] theorem State.loadRegs_i (s : State) (x : Reg) :
    (s.loadRegs x).i = s.i := rfl

@[simp] theorem State.loadRegs_pc (s : State) (x : Reg) :
    (s.loadRegs x).pc = s.pc := rfl

@[simp] theorem State.loadRegs_stack (s : State) (x : Reg) :
    (s.loadRegs x).stack = s.stack := rfl

@[simp] theorem State.loadRegs_sp (s : State) (x : Reg) :
    (s.loadRegs x).sp = s.sp := rfl

@[simp] theorem State.loadRegs_dt (s : State) (x : Reg) :
    (s.loadRegs x).dt = s.dt := rfl

@[simp] theorem State.loadRegs_st (s : State) (x : Reg) :
    (s.loadRegs x).st = s.st := rfl

@[simp] theorem State.loadRegs_gfx (s : State) (x : Reg) :
    (s.loadRegs x).gfx = s.gfx := rfl

@[simp] theorem State.loadRegs_drawFlag (s : State) (x : Reg) :
    (s.loadRegs x).drawFlag = s.drawFlag := rfl

@[simp] theorem State.loadRegs_keys (s : State) (x : Reg) :
    (s.loadRegs x).keys = s.keys := rfl

@[simp] theorem State.loadRegs_wait (s : State) (x : Reg) :
    (s.loadRegs x).wait = s.wait := rfl

@[simp] theorem State.loadRegs_fault (s : State) (x : Reg) :
    (s.loadRegs x).fault = s.fault := rfl

@[simp] theorem State.loadRegs_mem (s : State) (x : Reg) :
    (s.loadRegs x).mem = s.mem := rfl

@[simp] theorem State.loadRegs_config (s : State) (x : Reg) :
    (s.loadRegs x).config = s.config := rfl

@[simp] theorem State.loadRegs_draws (s : State) (x : Reg) :
    (s.loadRegs x).draws = s.draws := rfl

/-! ### `State.storeRandom` -/

@[simp] theorem State.storeRandom_i (s : State) (x : Reg) (kk r : Byte) :
    (s.storeRandom x kk r).i = s.i := rfl

@[simp] theorem State.storeRandom_pc (s : State) (x : Reg) (kk r : Byte) :
    (s.storeRandom x kk r).pc = s.pc + 2#16 := rfl

@[simp] theorem State.storeRandom_stack (s : State) (x : Reg) (kk r : Byte) :
    (s.storeRandom x kk r).stack = s.stack := rfl

@[simp] theorem State.storeRandom_sp (s : State) (x : Reg) (kk r : Byte) :
    (s.storeRandom x kk r).sp = s.sp := rfl

@[simp] theorem State.storeRandom_dt (s : State) (x : Reg) (kk r : Byte) :
    (s.storeRandom x kk r).dt = s.dt := rfl

@[simp] theorem State.storeRandom_st (s : State) (x : Reg) (kk r : Byte) :
    (s.storeRandom x kk r).st = s.st := rfl

@[simp] theorem State.storeRandom_gfx (s : State) (x : Reg) (kk r : Byte) :
    (s.storeRandom x kk r).gfx = s.gfx := rfl

@[simp] theorem State.storeRandom_drawFlag (s : State) (x : Reg) (kk r : Byte) :
    (s.storeRandom x kk r).drawFlag = s.drawFlag := rfl

@[simp] theorem State.storeRandom_keys (s : State) (x : Reg) (kk r : Byte) :
    (s.storeRandom x kk r).keys = s.keys := rfl

@[simp] theorem State.storeRandom_wait (s : State) (x : Reg) (kk r : Byte) :
    (s.storeRandom x kk r).wait = s.wait := rfl

@[simp] theorem State.storeRandom_fault (s : State) (x : Reg) (kk r : Byte) :
    (s.storeRandom x kk r).fault = s.fault := rfl

@[simp] theorem State.storeRandom_mem (s : State) (x : Reg) (kk r : Byte) :
    (s.storeRandom x kk r).mem = s.mem := rfl

@[simp] theorem State.storeRandom_config (s : State) (x : Reg) (kk r : Byte) :
    (s.storeRandom x kk r).config = s.config := rfl

@[simp] theorem State.storeRandom_draws (s : State) (x : Reg) (kk r : Byte) :
    (s.storeRandom x kk r).draws = s.draws + 1 := rfl

/-! ### `State.drawSprite` -/

@[simp] theorem State.drawSprite_i (s : State) (x y : Reg) (n : Nat) :
    (s.drawSprite x y n).i = s.i := rfl

@[simp] theorem State.drawSprite_pc (s : State) (x y : Reg) (n : Nat) :
    (s.drawSprite x y n).pc = s.pc := rfl

@[simp] theorem State.drawSprite_stack (s : State) (x y : Reg) (n : Nat) :
    (s.drawSprite x y n).stack = s.stack := rfl

@[simp] theorem State.drawSprite_sp (s : State) (x y : Reg) (n : Nat) :
    (s.drawSprite x y n).sp = s.sp := rfl

@[simp] theorem State.drawSprite_dt (s : State) (x y : Reg) (n : Nat) :
    (s.drawSprite x y n).dt = s.dt := rfl

@[simp] theorem State.drawSprite_st (s : State) (x y : Reg) (n : Nat) :
    (s.drawSprite x y n).st = s.st := rfl

@[simp] theorem State.drawSprite_drawFlag (s : State) (x y : Reg) (n : Nat) :
    (s.drawSprite x y n).drawFlag = true := rfl

@[simp] theorem State.drawSprite_keys (s : State) (x y : Reg) (n : Nat) :
    (s.drawSprite x y n).keys = s.keys := rfl

@[simp] theorem State.drawSprite_wait (s : State) (x y : Reg) (n : Nat) :
    (s.drawSprite x y n).wait = s.wait := rfl

@[simp] theorem State.drawSprite_fault (s : State) (x y : Reg) (n : Nat) :
    (s.drawSprite x y n).fault = s.fault := rfl

@[simp] theorem State.drawSprite_mem (s : State) (x y : Reg) (n : Nat) :
    (s.drawSprite x y n).mem = s.mem := rfl

@[simp] theorem State.drawSprite_config (s : State) (x y : Reg) (n : Nat) :
    (s.drawSprite x y n).config = s.config := rfl

@[simp] theorem State.drawSprite_draws (s : State) (x y : Reg) (n : Nat) :
    (s.drawSprite x y n).draws = s.draws := rfl

/-! ### `State.clearDrawFlag` -/

@[simp] theorem State.clearDrawFlag_v (s : State) :
    (s.clearDrawFlag).v = s.v := rfl

@[simp] theorem State.clearDrawFlag_i (s : State) :
    (s.clearDrawFlag).i = s.i := rfl

@[simp] theorem State.clearDrawFlag_pc (s : State) :
    (s.clearDrawFlag).pc = s.pc := rfl

@[simp] theorem State.clearDrawFlag_stack (s : State) :
    (s.clearDrawFlag).stack = s.stack := rfl

@[simp] theorem State.clearDrawFlag_sp (s : State) :
    (s.clearDrawFlag).sp = s.sp := rfl

@[simp] theorem State.clearDrawFlag_dt (s : State) :
    (s.clearDrawFlag).dt = s.dt := rfl

@[simp] theorem State.clearDrawFlag_st (s : State) :
    (s.clearDrawFlag).st = s.st := rfl

@[simp] theorem State.clearDrawFlag_gfx (s : State) :
    (s.clearDrawFlag).gfx = s.gfx := rfl

@[simp] theorem State.clearDrawFlag_drawFlag (s : State) :
    (s.clearDrawFlag).drawFlag = false := rfl

@[simp] theorem State.clearDrawFlag_keys (s : State) :
    (s.clearDrawFlag).keys = s.keys := rfl

@[simp] theorem State.clearDrawFlag_wait (s : State) :
    (s.clearDrawFlag).wait = s.wait := rfl

@[simp] theorem State.clearDrawFlag_fault (s : State) :
    (s.clearDrawFlag).fault = s.fault := rfl

@[simp] theorem State.clearDrawFlag_mem (s : State) :
    (s.clearDrawFlag).mem = s.mem := rfl

@[simp] theorem State.clearDrawFlag_config (s : State) :
    (s.clearDrawFlag).config = s.config := rfl

@[simp] theorem State.clearDrawFlag_draws (s : State) :
    (s.clearDrawFlag).draws = s.draws := rfl

/-! ### `State.writeFlagAndSum` -/

@[simp] theorem State.writeFlagAndSum_i (s : State) (x : Reg) (f b : Byte) :
    (s.writeFlagAndSum x f b).i = s.i := by
  unfold State.writeFlagAndSum; split <;> rfl

@[simp] theorem State.writeFlagAndSum_pc (s : State) (x : Reg) (f b : Byte) :
    (s.writeFlagAndSum x f b).pc = s.pc := by
  unfold State.writeFlagAndSum; split <;> rfl

@[simp] theorem State.writeFlagAndSum_stack (s : State) (x : Reg) (f b : Byte) :
    (s.writeFlagAndSum x f b).stack = s.stack := by
  unfold State.writeFlagAndSum; split <;> rfl

@[simp] theorem State.writeFlagAndSum_sp (s : State) (x : Reg) (f b : Byte) :
    (s.writeFlagAndSum x f b).sp = s.sp := by
  unfold State.writeFlagAndSum; split <;> rfl

@[simp] theorem State.writeFlagAndSum_dt (s : State) (x : Reg) (f b : Byte) :
    (s.writeFlagAndSum x f b).dt = s.dt := by
  unfold State.writeFlagAndSum; split <;> rfl

@[simp] theorem State.writeFlagAndSum_st (s : State) (x : Reg) (f b : Byte) :
    (s.writeFlagAndSum x f b).st = s.st := by
  unfold State.writeFlagAndSum; split <;> rfl

@[simp] theorem State.writeFlagAndSum_gfx (s : State) (x : Reg) (f b : Byte) :
    (s.writeFlagAndSum x f b).gfx = s.gfx := by
  unfold State.writeFlagAndSum; split <;> rfl

@[simp] theorem State.writeFlagAndSum_drawFlag (s : State) (x : Reg) (f b : Byte) :
    (s.writeFlagAndSum x f b).drawFlag = s.drawFlag := by
  unfold State.writeFlagAndSum; split <;> rfl

@[simp] theorem State.writeFlagAndSum_keys (s : State) (x : Reg) (f b : Byte) :
    (s.writeFlagAndSum x f b).keys = s.keys := by
  unfold State.writeFlagAndSum; split <;> rfl

@[simp] theorem State.writeFlagAndSum_wait (s : State) (x : Reg) (f b : Byte) :
    (s.writeFlagAndSum x f b).wait = s.wait := by
  unfold State.writeFlagAndSum; split <;> rfl

@[simp] theorem State.writeFlagAndSum_fault (s : State) (x : Reg) (f b : Byte) :
    (s.writeFlagAndSum x f b).fault = s.fault := by
  unfold State.writeFlagAndSum; split <;> rfl

@[simp] theorem State.writeFlagAndSum_mem (s : State) (x : Reg) (f b : Byte) :
    (s.writeFlagAndSum x f b).mem = s.mem := by
  unfold State.writeFlagAndSum; split <;> rfl

@[simp] theorem State.writeFlagAndSum_config (s : State) (x : Reg) (f b : Byte) :
    (s.writeFlagAndSum x f b).config = s.config := by
  unfold State.writeFlagAndSum; split <;> rfl

@[simp] theorem State.writeFlagAndSum_draws (s : State) (x : Reg) (f b : Byte) :
    (s.writeFlagAndSum x f b).draws = s.draws := by
  unfold State.writeFlagAndSum; split <;> rfl

/-! ### `State.writeFlagThenResult` -/

@[simp] theorem State.writeFlagThenResult_i (s : State) (x y : Reg) (f : Byte) (g : Byte → Byte → Byte) :
    (s.writeFlagThenResult x y f g).i = s.i := by
  unfold State.writeFlagThenResult; split <;> rfl

@[simp] theorem State.writeFlagThenResult_pc (s : State) (x y : Reg) (f : Byte) (g : Byte → Byte → Byte) :
    (s.writeFlagThenResult x y f g).pc = s.pc := by
  unfold State.writeFlagThenResult; split <;> rfl

@[simp] theorem State.writeFlagThenResult_stack (s : State) (x y : Reg) (f : Byte) (g : Byte → Byte → Byte) :
    (s.writeFlagThenResult x y f g).stack = s.stack := by
  unfold State.writeFlagThenResult; split <;> rfl

@[simp] theorem State.writeFlagThenResult_sp (s : State) (x y : Reg) (f : Byte) (g : Byte → Byte → Byte) :
    (s.writeFlagThenResult x y f g).sp = s.sp := by
  unfold State.writeFlagThenResult; split <;> rfl

@[simp] theorem State.writeFlagThenResult_dt (s : State) (x y : Reg) (f : Byte) (g : Byte → Byte → Byte) :
    (s.writeFlagThenResult x y f g).dt = s.dt := by
  unfold State.writeFlagThenResult; split <;> rfl

@[simp] theorem State.writeFlagThenResult_st (s : State) (x y : Reg) (f : Byte) (g : Byte → Byte → Byte) :
    (s.writeFlagThenResult x y f g).st = s.st := by
  unfold State.writeFlagThenResult; split <;> rfl

@[simp] theorem State.writeFlagThenResult_gfx (s : State) (x y : Reg) (f : Byte) (g : Byte → Byte → Byte) :
    (s.writeFlagThenResult x y f g).gfx = s.gfx := by
  unfold State.writeFlagThenResult; split <;> rfl

@[simp] theorem State.writeFlagThenResult_drawFlag (s : State) (x y : Reg) (f : Byte) (g : Byte → Byte → Byte) :
    (s.writeFlagThenResult x y f g).drawFlag = s.drawFlag := by
  unfold State.writeFlagThenResult; split <;> rfl

@[simp] theorem State.writeFlagThenResult_keys (s : State) (x y : Reg) (f : Byte) (g : Byte → Byte → Byte) :
    (s.writeFlagThenResult x y f g).keys = s.keys := by
  unfold State.writeFlagThenResult; split <;> rfl

@[simp] theorem State.writeFlagThenResult_wait (s : State) (x y : Reg) (f : Byte) (g : Byte → Byte → Byte) :
    (s.writeFlagThenResult x y f g).wait = s.wait := by
  unfold State.writeFlagThenResult; split <;> rfl

@[simp] theorem State.writeFlagThenResult_fault (s : State) (x y : Reg) (f : Byte) (g : Byte → Byte → Byte) :
    (s.writeFlagThenResult x y f g).fault = s.fault := by
  unfold State.writeFlagThenResult; split <;> rfl

@[simp] theorem State.writeFlagThenResult_mem (s : State) (x y : Reg) (f : Byte) (g : Byte → Byte → Byte) :
    (s.writeFlagThenResult x y f g).mem = s.mem := by
  unfold State.writeFlagThenResult; split <;> rfl

@[simp] theorem State.writeFlagThenResult_config (s : State) (x y : Reg) (f : Byte) (g : Byte → Byte → Byte) :
    (s.writeFlagThenResult x y f g).config = s.config := by
  unfold State.writeFlagThenResult; split <;> rfl

@[simp] theorem State.writeFlagThenResult_draws (s : State) (x y : Reg) (f : Byte) (g : Byte → Byte → Byte) :
    (s.writeFlagThenResult x y f g).draws = s.draws := by
  unfold State.writeFlagThenResult; split <;> rfl

/-! ### Memory reads the same after every update that does not store -/

@[simp] theorem State.readByte_setV (s : State) (x : Reg) (b : Byte) (adr : Nat) :
    (s.setV x b).readByte adr = s.readByte adr := by simp [State.readByte]

@[simp] theorem State.readByte_setI (s : State) (w : Word) (adr : Nat) :
    (s.setI w).readByte adr = s.readByte adr := by simp [State.readByte]

@[simp] theorem State.readByte_jump (s : State) (w : Word) (adr : Nat) :
    (s.jump w).readByte adr = s.readByte adr := by simp [State.readByte]

@[simp] theorem State.readByte_advance (s : State) (adr : Nat) :
    (s.advance).readByte adr = s.readByte adr := by simp [State.readByte]

@[simp] theorem State.readByte_skipIf (s : State) (c : Bool) (adr : Nat) :
    (s.skipIf c).readByte adr = s.readByte adr := by simp [State.readByte]

@[simp] theorem State.readByte_raise (s : State) (r : FaultRecord) (adr : Nat) :
    (s.raise r).readByte adr = s.readByte adr := by simp [State.readByte]

@[simp] theorem State.readByte_tick (s : State) (adr : Nat) :
    (s.tick).readByte adr = s.readByte adr := by simp [State.readByte]

@[simp] theorem State.readByte_takeKey (s : State) (x k : Reg) (adr : Nat) :
    (s.takeKey x k).readByte adr = s.readByte adr := by simp [State.readByte]

@[simp] theorem State.readByte_loadRegs (s : State) (x : Reg) (adr : Nat) :
    (s.loadRegs x).readByte adr = s.readByte adr := by simp [State.readByte]

@[simp] theorem State.readByte_storeRandom (s : State) (x : Reg) (kk r : Byte) (adr : Nat) :
    (s.storeRandom x kk r).readByte adr = s.readByte adr := by simp [State.readByte]

@[simp] theorem State.readByte_drawSprite (s : State) (x y : Reg) (n : Nat) (adr : Nat) :
    (s.drawSprite x y n).readByte adr = s.readByte adr := by simp [State.readByte]

@[simp] theorem State.readByte_clearDrawFlag (s : State) (adr : Nat) :
    (s.clearDrawFlag).readByte adr = s.readByte adr := by simp [State.readByte]

@[simp] theorem State.readByte_writeFlagAndSum (s : State) (x : Reg) (f b : Byte) (adr : Nat) :
    (s.writeFlagAndSum x f b).readByte adr = s.readByte adr := by simp [State.readByte]

@[simp] theorem State.readByte_writeFlagThenResult (s : State) (x y : Reg) (f : Byte) (g : Byte → Byte → Byte) (adr : Nat) :
    (s.writeFlagThenResult x y f g).readByte adr = s.readByte adr := by simp [State.readByte]

end Sys2Proof.Machine
end

