-- ==== Sys2Proof/Laws/Ops.lean ====
section
/-! SUPPORT. What each shared operation does, once: registers, memory, stack, keys and the checked access. -/

namespace Sys2Proof.Machine

/-! ### Registers -/

theorem State.getV_setV (s : State) (x r : Reg) (b : Byte) :
    (s.setV x b).getV r = if r = x then b else s.getV r := by
  simp only [State.getV, State.setV, Vector.get_eq_getElem, Vector.getElem_set, Fin.ext_iff]
  grind

@[simp] theorem State.getV_setV_self (s : State) (x : Reg) (b : Byte) : (s.setV x b).getV x = b := by
  simp [State.getV_setV]

theorem State.getV_setV_of_ne (s : State) {x r : Reg} (h : r ≠ x) (b : Byte) : (s.setV x b).getV r = s.getV r := by
  simp [State.getV_setV, h]

/-- A register reads the same in two states with the same registers. -/
theorem State.getV_congr {s t : State} (h : t.v = s.v) (r : Reg) : t.getV r = s.getV r := by
  simp [State.getV, h]

@[simp] theorem State.getV_setI (s : State) (w : Word) (r : Reg) : (s.setI w).getV r = s.getV r := rfl
@[simp] theorem State.getV_jump (s : State) (w : Word) (r : Reg) : (s.jump w).getV r = s.getV r := rfl
@[simp] theorem State.getV_advance (s : State) (r : Reg) : s.advance.getV r = s.getV r := rfl
@[simp] theorem State.getV_skipIf (s : State) (c : Bool) (r : Reg) : (s.skipIf c).getV r = s.getV r := rfl
@[simp] theorem State.getV_writeBlock (s : State) (a : Nat) (bs : List Byte) (r : Reg) :
    (s.writeBlock a bs).getV r = s.getV r := rfl
@[simp] theorem State.getV_raise (s : State) (f : FaultRecord) (r : Reg) : (s.raise f).getV r = s.getV r := rfl
@[simp] theorem State.getV_tick (s : State) (r : Reg) : s.tick.getV r = s.getV r := rfl

theorem State.getV_takeKey (s : State) (x k r : Reg) :
    (s.takeKey x k).getV r = if r = x then byteOfKey k else s.getV r := State.getV_setV s x r _

theorem State.getV_storeRandom (s : State) (x : Reg) (kk b : Byte) (r : Reg) :
    (s.storeRandom x kk b).getV r = if r = x then b &&& kk else s.getV r := State.getV_setV s x r _

/-- FX65 loads V0..VX and no other register (R156). -/
theorem State.getV_loadRegs (s : State) (x r : Reg) :
    (s.loadRegs x).getV r = if r.val ≤ x.val then s.readByte (s.indexBase + r.val) else s.getV r := by
  simp [State.getV, State.loadRegs, Vector.get_eq_getElem]

/-! ### Memory -/

theorem State.readByte_congr {s t : State} (hm : t.mem = s.mem) (hc : t.config = s.config) (a : Nat) :
    t.readByte a = s.readByte a := by
  simp [State.readByte, hm, hc]

theorem State.readByte_writeBlock (s : State) (a : Nat) (bs : List Byte) (b : Nat) :
    (s.writeBlock a bs).readByte b =
      if h : a ≤ b ∧ b < a + bs.length then bs[b - a]'(by omega) else s.readByte b :=
  Memory.read_writeBlock _ _ _ _ _

theorem State.readByte_writeBlock_outside (s : State) (a : Nat) (bs : List Byte) (b : Nat)
    (h : b < a ∨ a + bs.length ≤ b) : (s.writeBlock a bs).readByte b = s.readByte b :=
  Memory.read_writeBlock_outside _ _ _ _ _ h

@[simp] theorem State.length_readBlock (s : State) (a n : Nat) : (s.readBlock a n).length = n := by
  simp [State.readBlock]

theorem State.getElem_readBlock (s : State) (a n k : Nat) (h : k < (s.readBlock a n).length) :
    (s.readBlock a n)[k] = s.readByte (a + k) := by
  simp [State.readBlock, State.readByte]

@[simp] theorem State.length_regBlock (s : State) (x : Reg) : (s.regBlock x).length = blockLength x := by
  have := x.isLt
  simp only [State.regBlock, blockLength, List.length_take, Vector.length_toList]
  omega

theorem State.getElem_regBlock (s : State) (x : Reg) (k : Nat) (h : k < (s.regBlock x).length) :
    (s.regBlock x)[k] = s.getV ⟨k, by have := x.isLt; simp [blockLength] at h; omega⟩ := by
  simp [State.regBlock, State.getV, Vector.get_eq_getElem]

@[simp] theorem length_bcdDigits (b : Byte) : (bcdDigits b).length = 3 := rfl

/-- A checked access either records the lowest address above 0xFFF, or has its effect (R57). -/
theorem State.checked_cases (s : State) (i : Instr) (n : Nat) (effect : State) :
    (∃ a, outOfRange s.indexBase n = some a ∧
        s.checked i n effect = .next (s.raise (.memoryOutOfRange (encodeWord i) s.pc a))) ∨
      (outOfRange s.indexBase n = none ∧ s.checked i n effect = .next effect) := by
  unfold State.checked
  cases h : outOfRange s.indexBase n with
  | none => exact .inr ⟨rfl, rfl⟩
  | some a => exact .inl ⟨a, rfl, rfl⟩

theorem State.checked_of_none {s : State} {n : Nat} (h : outOfRange s.indexBase n = none) (i : Instr)
    (effect : State) : s.checked i n effect = .next effect := by
  simp [State.checked, h]

theorem State.checked_of_some {s : State} {n a : Nat} (h : outOfRange s.indexBase n = some a) (i : Instr)
    (effect : State) : s.checked i n effect = .next (s.raise (.memoryOutOfRange (encodeWord i) s.pc a)) := by
  simp [State.checked, h]

/-! ### The stack -/

theorem State.push_eq_none_iff (s : State) (w : Word) : s.push w = none ↔ s.sp.val = 16 := by
  have := s.sp.isLt
  unfold State.push
  split <;> simp <;> omega

theorem State.pop_eq_none_iff (s : State) : s.pop = none ↔ s.sp.val = 0 := by
  unfold State.pop
  split <;> simp_all

/-- A push that succeeds writes the old top slot and raises sp. -/
theorem State.push_eq_some {s t : State} {w : Word} (h : s.push w = some t) :
    ∃ hs : s.sp.val < 16, t = { s with stack := s.stack.set s.sp.val w hs, sp := ⟨s.sp.val + 1, by omega⟩ } := by
  unfold State.push at h
  split at h
  · rename_i hs; exact ⟨hs, by simpa using h.symm⟩
  · simp at h

/-- A pop that succeeds lowers sp, keeps every entry, and answers the entry at the new sp. -/
theorem State.pop_eq_some {s t : State} {w : Word} (h : s.pop = some (t, w)) :
    ∃ _hs : s.sp.val ≠ 0, t = { s with sp := ⟨s.sp.val - 1, by omega⟩ } ∧
      w = s.stack[s.sp.val - 1]'(by omega) := by
  unfold State.pop at h
  split at h
  · simp at h
  · rename_i hs
    simp only [Option.some.injEq, Prod.mk.injEq] at h
    exact ⟨hs, h.1.symm, h.2.symm⟩

/-! ### Keys -/

/-- No key is found exactly when none is down. -/
theorem highestKey_eq_none_iff (keys : Vector Bool 16) : highestKey keys = none ↔ ∀ k : Reg, keys.get k = false := by
  simp [highestKey, List.find?_eq_none]

/-- The key that is found is down, and no higher key is (R88). -/
theorem highestKey_eq_some_iff (keys : Vector Bool 16) (k : Reg) :
    highestKey keys = some k ↔ keys.get k = true ∧ ∀ j : Reg, k < j → keys.get j = false := by
  have hsort : (List.finRange 16).reverse.Pairwise (fun a b : Reg => b < a) := by decide
  unfold highestKey
  constructor
  · intro h
    have hk := List.find?_some h
    obtain ⟨-, as, bs, hl, hpre⟩ := List.find?_eq_some_iff_append.1 h
    refine ⟨hk, fun j hj => ?_⟩
    rw [hl] at hsort
    have hmem : j ∈ (List.finRange 16).reverse := by simp
    rw [hl] at hmem
    rcases List.mem_append.1 hmem with hm | hm
    · simpa using hpre j hm
    · rcases List.mem_cons.1 hm with rfl | hm
      · exact absurd hj (lt_irrefl _)
      · have := (List.pairwise_cons.1 (List.pairwise_append.1 hsort).2.1).1 j hm
        exact absurd (hj.trans this) (lt_irrefl _)
  · rintro ⟨hk, hhigh⟩
    cases hf : (List.finRange 16).reverse.find? fun k => keys.get k with
    | none =>
      have := (List.find?_eq_none.1 hf) k (by simp)
      simp [hk] at this
    | some j =>
      have hj := List.find?_some hf
      rcases lt_trichotomy j k with hlt | rfl | hgt
      · obtain ⟨-, as, bs, hl, hpre⟩ := List.find?_eq_some_iff_append.1 hf
        have hmem : k ∈ (List.finRange 16).reverse := by simp
        rw [hl] at hsort hmem
        rcases List.mem_append.1 hmem with hm | hm
        · have := hpre k hm; simp [hk] at this
        · rcases List.mem_cons.1 hm with rfl | hm
          · rfl
          · have := (List.pairwise_cons.1 (List.pairwise_append.1 hsort).2.1).1 k hm
            exact absurd (hlt.trans this) (lt_irrefl _)
      · rfl
      · simp [hhigh j hgt] at hj

theorem keyOperand_eq_some_iff (b : Byte) (k : Reg) : keyOperand b = some k ↔ b.toNat = k.val := by
  unfold keyOperand
  split
  · simp [Fin.ext_iff]
  · have := k.isLt; simp; omega

theorem keyOperand_eq_none_iff (b : Byte) : keyOperand b = none ↔ 0xF < b.toNat := by
  unfold keyOperand
  split <;> simp <;> omega

end Sys2Proof.Machine
end

