-- ==== Sys2Proof/Laws/Display.lean ====
section
/-! SUPPORT. What one flip and one plot do to a pixel, and where pixel indices lie. -/

namespace Sys2Proof.Machine

/-- A pixel index is one of 0..2047. -/
theorem pixelIndex_lt (x y : Nat) : pixelIndex x y < 2048 := by
  unfold pixelIndex
  have := Nat.mod_lt x (show 64 > 0 by decide)
  have := Nat.mod_lt y (show 32 > 0 by decide)
  omega

/-- Two coordinate pairs name the same pixel exactly when they agree mod 64 and mod 32. -/
theorem pixelIndex_eq_iff (x y x' y' : Nat) :
    pixelIndex x y = pixelIndex x' y' ↔ x % 64 = x' % 64 ∧ y % 32 = y' % 32 := by
  unfold pixelIndex
  have := Nat.mod_lt x (show 64 > 0 by decide)
  have := Nat.mod_lt x' (show 64 > 0 by decide)
  omega

/-- A flip changes its own pixel and no other. -/
theorem Gfx.pixel_flip (g : Gfx) (p q : Nat) (hp : p < 2048) :
    (g.flip p).pixel q = (g.pixel q ^^ decide (q = p)) := by
  simp only [Gfx.pixel, Gfx.flip, BitVec.getLsbD_xor, BitVec.getLsbD_shiftLeft]
  congr 1
  by_cases h : q = p
  · subst h; simp [hp]
  · by_cases hq : q < 2048
    · by_cases hlt : q < p
      · simp [hlt, h]
      · have : q - p ≠ 0 := by omega
        simp [hq, hlt, h, BitVec.getLsbD_one, this]
    · simp [hq, h]

/-- A blank display has no set pixel. -/
@[simp] theorem Gfx.pixel_zero (p : Nat) : Gfx.pixel 0#2048 p = false := by
  simp [Gfx.pixel]

@[simp] theorem Canvas.plot_gfx (c : Canvas) (p : Nat) : (c.plot p).gfx = c.gfx.flip p := rfl

@[simp] theorem Canvas.plot_collision (c : Canvas) (p : Nat) :
    (c.plot p).collision = (c.collision || c.gfx.pixel p) := rfl

/-- DXYN writes VF and no other register (R173). -/
theorem State.getV_drawSprite (s : State) (x y : Reg) (n : Nat) (r : Reg) :
    (s.drawSprite x y n).getV r =
      if r = regF then
        flagByte (Canvas.drawRows (s.spriteRows n) (s.getV x).toNat (s.getV y).toNat ⟨s.gfx, false⟩).collision
      else s.getV r :=
  State.getV_setV s regF r _

theorem State.drawSprite_gfx (s : State) (x y : Reg) (n : Nat) :
    (s.drawSprite x y n).gfx =
      (Canvas.drawRows (s.spriteRows n) (s.getV x).toNat (s.getV y).toNat ⟨s.gfx, false⟩).gfx := rfl

end Sys2Proof.Machine
end

