-- ==== Sys2Proof/Laws/PerInstr.lean ====
section
/-! SUPPORT. Per-instruction laws. `EncodingMatchesRow`: the opcode of an instruction matches the mask and pattern of its
own row of the opcode table (`spec/30_encoding.md` R74). -/

namespace Sys2Proof.Laws

/-! ### Encoded words under the masks of the table -/

theorem encodeNNN_and_mask (op : Nibble) (nnn : Addr12) :
    encodeNNN op nnn &&& 0xF000#16 = encodeNNN op 0#12 := by
  rw [show (0xF000#16 : Word) = 0xF#4 ++ 0#12 from rfl]
  refine (BitVec.and_append (x₁ := op) (y₁ := nnn) (x₂ := 0xF#4) (y₂ := 0#12)).trans ?_
  rw [encodeNNN, BitVec.and_zero, show op &&& 0xF#4 = op from BitVec.and_allOnes (w := 4)]

theorem encodeXKK_and_maskOp (op : Nibble) (x : Reg) (kk : Byte) :
    encodeXKK op x kk &&& 0xF000#16 = encodeNNN op 0#12 :=
  encodeNNN_and_mask op _

theorem encodeXKK_and_maskKK (op : Nibble) (x : Reg) (kk : Byte) :
    encodeXKK op x kk &&& 0xF0FF#16 = encodeXKK op 0 kk := by
  rw [encodeXKK, show (0xF0FF#16 : Word) = 0xF#4 ++ (0#4 ++ 0xFF#8) from rfl]
  refine (BitVec.and_append (x₁ := op) (y₁ := nibbleOfReg x ++ kk) (x₂ := 0xF#4) (y₂ := 0#4 ++ 0xFF#8)).trans ?_
  rw [show op &&& 0xF#4 = op from BitVec.and_allOnes (w := 4), encodeXKK]
  congr 1
  refine (BitVec.and_append (x₁ := nibbleOfReg x) (y₁ := kk) (x₂ := 0#4) (y₂ := 0xFF#8)).trans ?_
  rw [BitVec.and_zero, show kk &&& 0xFF#8 = kk from BitVec.and_allOnes (w := 8)]
  rfl

theorem encodeXYN_and_maskOp (op : Nibble) (x y : Reg) (n : Nibble) :
    encodeXYN op x y n &&& 0xF000#16 = encodeNNN op 0#12 :=
  encodeNNN_and_mask op _

theorem encodeXYN_and_maskN (op : Nibble) (x y : Reg) (n : Nibble) :
    encodeXYN op x y n &&& 0xF00F#16 = encodeXYN op 0 0 n := by
  rw [encodeXYN, show (0xF00F#16 : Word) = 0xF#4 ++ (0#4 ++ (0#4 ++ 0xF#4)) from rfl]
  refine (BitVec.and_append (x₁ := op) (y₁ := nibbleOfReg x ++ (nibbleOfReg y ++ n)) (x₂ := 0xF#4)
    (y₂ := 0#4 ++ (0#4 ++ 0xF#4))).trans ?_
  rw [show op &&& 0xF#4 = op from BitVec.and_allOnes (w := 4), encodeXYN]
  congr 1
  refine (BitVec.and_append (x₁ := nibbleOfReg x) (y₁ := nibbleOfReg y ++ n) (x₂ := 0#4)
    (y₂ := 0#4 ++ 0xF#4)).trans ?_
  rw [BitVec.and_zero]
  refine congrArg (fun z : BitVec 8 => 0#4 ++ z) ?_
  refine (BitVec.and_append (x₁ := nibbleOfReg y) (y₁ := n) (x₂ := 0#4) (y₂ := 0xF#4)).trans ?_
  rw [BitVec.and_zero, show n &&& 0xF#4 = n from BitVec.and_allOnes (w := 4)]
  rfl

/-- The encoded opcode matches the instruction's own row. -/
def EncodingMatchesRow.Statement (i : Instr) : Prop :=
  ∃ r ∈ opcodeTable, r.mnemonic = i.mnemonic ∧ encodeWord i &&& r.mask = r.pattern

theorem EncodingMatchesRow.cls : EncodingMatchesRow.Statement .cls :=
  ⟨⟨"CLS", 0x00E0, 0xFFFF⟩, by decide, rfl, rfl⟩

theorem EncodingMatchesRow.ret : EncodingMatchesRow.Statement .ret :=
  ⟨⟨"RET", 0x00EE, 0xFFFF⟩, by decide, rfl, rfl⟩

theorem EncodingMatchesRow.jp (nnn : Addr12) : EncodingMatchesRow.Statement (.jp nnn) :=
  ⟨⟨"JP_addr", 0x1000, 0xF000⟩, by decide, rfl, encodeNNN_and_mask _ _⟩

theorem EncodingMatchesRow.call (nnn : Addr12) : EncodingMatchesRow.Statement (.call nnn) :=
  ⟨⟨"CALL_addr", 0x2000, 0xF000⟩, by decide, rfl, encodeNNN_and_mask _ _⟩

theorem EncodingMatchesRow.seByte (x : Reg) (kk : Byte) : EncodingMatchesRow.Statement (.seByte x kk) :=
  ⟨⟨"SE_Vx__byte", 0x3000, 0xF000⟩, by decide, rfl, encodeXKK_and_maskOp _ _ _⟩

theorem EncodingMatchesRow.sneByte (x : Reg) (kk : Byte) : EncodingMatchesRow.Statement (.sneByte x kk) :=
  ⟨⟨"SNE_Vx__byte", 0x4000, 0xF000⟩, by decide, rfl, encodeXKK_and_maskOp _ _ _⟩

theorem EncodingMatchesRow.seReg (x y : Reg) : EncodingMatchesRow.Statement (.seReg x y) :=
  ⟨⟨"SE_Vx__Vy", 0x5000, 0xF00F⟩, by decide, rfl, encodeXYN_and_maskN _ _ _ _⟩

theorem EncodingMatchesRow.ldByte (x : Reg) (kk : Byte) : EncodingMatchesRow.Statement (.ldByte x kk) :=
  ⟨⟨"LD_Vx__byte", 0x6000, 0xF000⟩, by decide, rfl, encodeXKK_and_maskOp _ _ _⟩

theorem EncodingMatchesRow.addByte (x : Reg) (kk : Byte) : EncodingMatchesRow.Statement (.addByte x kk) :=
  ⟨⟨"ADD_Vx__byte", 0x7000, 0xF000⟩, by decide, rfl, encodeXKK_and_maskOp _ _ _⟩

theorem EncodingMatchesRow.ldReg (x y : Reg) : EncodingMatchesRow.Statement (.ldReg x y) :=
  ⟨⟨"LD_Vx__Vy", 0x8000, 0xF00F⟩, by decide, rfl, encodeXYN_and_maskN _ _ _ _⟩

theorem EncodingMatchesRow.orReg (x y : Reg) : EncodingMatchesRow.Statement (.orReg x y) :=
  ⟨⟨"OR_Vx__Vy", 0x8001, 0xF00F⟩, by decide, rfl, encodeXYN_and_maskN _ _ _ _⟩

theorem EncodingMatchesRow.andReg (x y : Reg) : EncodingMatchesRow.Statement (.andReg x y) :=
  ⟨⟨"AND_Vx__Vy", 0x8002, 0xF00F⟩, by decide, rfl, encodeXYN_and_maskN _ _ _ _⟩

theorem EncodingMatchesRow.xorReg (x y : Reg) : EncodingMatchesRow.Statement (.xorReg x y) :=
  ⟨⟨"XOR_Vx__Vy", 0x8003, 0xF00F⟩, by decide, rfl, encodeXYN_and_maskN _ _ _ _⟩

theorem EncodingMatchesRow.addReg (x y : Reg) : EncodingMatchesRow.Statement (.addReg x y) :=
  ⟨⟨"ADD_Vx__Vy", 0x8004, 0xF00F⟩, by decide, rfl, encodeXYN_and_maskN _ _ _ _⟩

theorem EncodingMatchesRow.subReg (x y : Reg) : EncodingMatchesRow.Statement (.subReg x y) :=
  ⟨⟨"SUB_Vx__Vy", 0x8005, 0xF00F⟩, by decide, rfl, encodeXYN_and_maskN _ _ _ _⟩

theorem EncodingMatchesRow.shr (x y : Reg) : EncodingMatchesRow.Statement (.shr x y) :=
  ⟨⟨"SHR_Vx", 0x8006, 0xF00F⟩, by decide, rfl, encodeXYN_and_maskN _ _ _ _⟩

theorem EncodingMatchesRow.subnReg (x y : Reg) : EncodingMatchesRow.Statement (.subnReg x y) :=
  ⟨⟨"SUBN_Vx__Vy", 0x8007, 0xF00F⟩, by decide, rfl, encodeXYN_and_maskN _ _ _ _⟩

theorem EncodingMatchesRow.shl (x y : Reg) : EncodingMatchesRow.Statement (.shl x y) :=
  ⟨⟨"SHL_Vx", 0x800E, 0xF00F⟩, by decide, rfl, encodeXYN_and_maskN _ _ _ _⟩

theorem EncodingMatchesRow.sneReg (x y : Reg) : EncodingMatchesRow.Statement (.sneReg x y) :=
  ⟨⟨"SNE_Vx__Vy", 0x9000, 0xF00F⟩, by decide, rfl, encodeXYN_and_maskN _ _ _ _⟩

theorem EncodingMatchesRow.ldI (nnn : Addr12) : EncodingMatchesRow.Statement (.ldI nnn) :=
  ⟨⟨"LD_I__addr", 0xA000, 0xF000⟩, by decide, rfl, encodeNNN_and_mask _ _⟩

theorem EncodingMatchesRow.jpV0 (nnn : Addr12) : EncodingMatchesRow.Statement (.jpV0 nnn) :=
  ⟨⟨"JP_V0__addr", 0xB000, 0xF000⟩, by decide, rfl, encodeNNN_and_mask _ _⟩

theorem EncodingMatchesRow.rnd (x : Reg) (kk : Byte) : EncodingMatchesRow.Statement (.rnd x kk) :=
  ⟨⟨"RND_Vx__byte", 0xC000, 0xF000⟩, by decide, rfl, encodeXKK_and_maskOp _ _ _⟩

theorem EncodingMatchesRow.drw (x y : Reg) (n : Nat) : EncodingMatchesRow.Statement (.drw x y n) :=
  ⟨⟨"DRW_Vx__Vy__nibble", 0xD000, 0xF000⟩, by decide, rfl, encodeXYN_and_maskOp _ _ _ _⟩

theorem EncodingMatchesRow.skp (x : Reg) : EncodingMatchesRow.Statement (.skp x) :=
  ⟨⟨"SKP_Vx", 0xE09E, 0xF0FF⟩, by decide, rfl, encodeXKK_and_maskKK _ _ _⟩

theorem EncodingMatchesRow.sknp (x : Reg) : EncodingMatchesRow.Statement (.sknp x) :=
  ⟨⟨"SKNP_Vx", 0xE0A1, 0xF0FF⟩, by decide, rfl, encodeXKK_and_maskKK _ _ _⟩

theorem EncodingMatchesRow.ldVxDT (x : Reg) : EncodingMatchesRow.Statement (.ldVxDT x) :=
  ⟨⟨"LD_Vx__DT", 0xF007, 0xF0FF⟩, by decide, rfl, encodeXKK_and_maskKK _ _ _⟩

theorem EncodingMatchesRow.ldVxK (x : Reg) : EncodingMatchesRow.Statement (.ldVxK x) :=
  ⟨⟨"LD_Vx__K", 0xF00A, 0xF0FF⟩, by decide, rfl, encodeXKK_and_maskKK _ _ _⟩

theorem EncodingMatchesRow.ldDTVx (x : Reg) : EncodingMatchesRow.Statement (.ldDTVx x) :=
  ⟨⟨"LD_DT__Vx", 0xF015, 0xF0FF⟩, by decide, rfl, encodeXKK_and_maskKK _ _ _⟩

theorem EncodingMatchesRow.ldSTVx (x : Reg) : EncodingMatchesRow.Statement (.ldSTVx x) :=
  ⟨⟨"LD_ST__Vx", 0xF018, 0xF0FF⟩, by decide, rfl, encodeXKK_and_maskKK _ _ _⟩

theorem EncodingMatchesRow.addI (x : Reg) : EncodingMatchesRow.Statement (.addI x) :=
  ⟨⟨"ADD_I__Vx", 0xF01E, 0xF0FF⟩, by decide, rfl, encodeXKK_and_maskKK _ _ _⟩

theorem EncodingMatchesRow.ldF (x : Reg) : EncodingMatchesRow.Statement (.ldF x) :=
  ⟨⟨"LD_F__Vx", 0xF029, 0xF0FF⟩, by decide, rfl, encodeXKK_and_maskKK _ _ _⟩

theorem EncodingMatchesRow.ldB (x : Reg) : EncodingMatchesRow.Statement (.ldB x) :=
  ⟨⟨"LD_B__Vx", 0xF033, 0xF0FF⟩, by decide, rfl, encodeXKK_and_maskKK _ _ _⟩

theorem EncodingMatchesRow.store (x : Reg) : EncodingMatchesRow.Statement (.store x) :=
  ⟨⟨"LD__I___Vx", 0xF055, 0xF0FF⟩, by decide, rfl, encodeXKK_and_maskKK _ _ _⟩

theorem EncodingMatchesRow.load (x : Reg) : EncodingMatchesRow.Statement (.load x) :=
  ⟨⟨"LD_Vx___I", 0xF065, 0xF0FF⟩, by decide, rfl, encodeXKK_and_maskKK _ _ _⟩

end Sys2Proof.Laws
end

