-- ==== Sys2Proof/Tests/Slice0.lean ====
section
/-! SUPPORT. Tests of the model's own. Expected results are the spec's test vectors (`spec/95_test_vectors.md`, named in
each test), the encodings of R74, or hand calculation from the rule a test names. -/

namespace Sys2Proof.Tests

open Sys2Proof.Machine

/-! ### Decoding: every constructor from a word written out from its encoding (R74, `spec/opcode_table.json`) -/

theorem test_decode_control_flow :
    decodeTableWord 16 0b0000000011101110 = some .ret ∧
    decodeTableWord 16 0b0001001000110100 = some (.jp 0x234) ∧
    decodeTableWord 16 0b0010111111111111 = some (.call 0xFFF) ∧
    decodeTableWord 16 0b0011001000000111 = some (.seByte 2 0x07) ∧
    decodeTableWord 16 0b0100001000001000 = some (.sneByte 2 0x08) ∧
    decodeTableWord 16 0b0101000101000000 = some (.seReg 1 4) ∧
    decodeTableWord 16 0b1001000101000000 = some (.sneReg 1 4) ∧
    decodeTableWord 16 0b1011111100000001 = some (.jpV0 0xF01) := by decide

theorem test_decode_alu :
    decodeTableWord 16 0b0110101000101100 = some (.ldByte 10 0x2C) ∧
    decodeTableWord 16 0b0111010000000010 = some (.addByte 4 0x02) ∧
    decodeTableWord 16 0b1000010100110000 = some (.ldReg 5 3) ∧
    decodeTableWord 16 0b1000000000010001 = some (.orReg 0 1) ∧
    decodeTableWord 16 0b1000000000010010 = some (.andReg 0 1) ∧
    decodeTableWord 16 0b1000000000010011 = some (.xorReg 0 1) ∧
    decodeTableWord 16 0b1000000100100100 = some (.addReg 1 2) ∧
    decodeTableWord 16 0b1000000100100101 = some (.subReg 1 2) ∧
    decodeTableWord 16 0b1000001011110110 = some (.shr 2 15) ∧
    decodeTableWord 16 0b1000000100100111 = some (.subnReg 1 2) ∧
    decodeTableWord 16 0b1000001000001110 = some (.shl 2 0) ∧
    decodeTableWord 16 0b1100001100001111 = some (.rnd 3 0x0F) := by decide

theorem test_decode_index_memory :
    decodeTableWord 16 0b1010001011110000 = some (.ldI 0x2F0) ∧
    decodeTableWord 16 0b1111000100011110 = some (.addI 1) ∧
    decodeTableWord 16 0b1111101000101001 = some (.ldF 10) ∧
    decodeTableWord 16 0b1111011000110011 = some (.ldB 6) ∧
    decodeTableWord 16 0b1111001001010101 = some (.store 2) ∧
    decodeTableWord 16 0b1111111101100101 = some (.load 15) := by decide

theorem test_decode_display :
    decodeTableWord 16 0b0000000011100000 = some .cls ∧
    decodeTableWord 16 0b1101000000011111 = some (.drw 0 1 15) := by decide

theorem test_decode_keys_timers :
    decodeTableWord 16 0b1110010110011110 = some (.skp 5) ∧
    decodeTableWord 16 0b1110010110100001 = some (.sknp 5) ∧
    decodeTableWord 16 0b1111001100000111 = some (.ldVxDT 3) ∧
    decodeTableWord 16 0b1111001000001010 = some (.ldVxK 2) ∧
    decodeTableWord 16 0b1111001100010101 = some (.ldDTVx 3) ∧
    decodeTableWord 16 0b1111001100011000 = some (.ldSTVx 3) := by decide

/-- Vectors B5-B12 and L1-9: illegal words of every group that has them, and the bytes that are too few (R70, R77-R81). -/
theorem test_decode_rejects :
    ([0x0123, 0x00E1, 0x5121, 0x5FFF, 0x9121, 0x8128, 0x812F, 0xE19F, 0xF1FF].all fun w =>
      (decodeTableWord 16 w).isNone) = true ∧
    decode [0x00, 0xE1, 0x12] = .error (.unknownOpcode 0x00E1) ∧
    decode [0x12] = .error .truncated ∧
    decode [] = .error .truncated := by decide

/-- The high byte comes first (R54), and what follows an instruction is left over (R70). -/
theorem test_decode_big_endian : decode [0x6A, 0x2C, 0x99] = .ok (.ldByte 10 0x2C, [0x99]) := by decide

theorem test_encode_big_endian :
    encode (.shr 2 15) = [0x82, 0xF6] ∧ encode (.drw 0 1 15) = [0xD0, 0x1F] ∧ encode .cls = [0x00, 0xE0] := by decide

/-! ### WellFormed: the one check, and the ill-formed term it refuses -/

theorem test_wellFormed_refuses_sixteen_rows : (Instr.drw 0 1 16).wellFormed = false := by decide

theorem test_wellFormed_admits_fifteen_rows : (Instr.drw 0 1 15).wellFormed = true := by decide

/-! ### One step on a small state -/

/-- The reset state changed by `f`, with the opcode `w` at pc. -/
def start (w : Nat) (f : State → State) : State := (f State.reset).withFetchWord 16 w

/-- The step answers a next state that passes the check. -/
def stepsTo (s : State) (p : State → Bool) : Bool :=
  match step s with
  | .next t => p t
  | .fault _ => false
  | .refused _ => false

/-- The fault record left by one step. -/
def faultAfter (s : State) : Option FaultRecord :=
  match step s with
  | .next t => t.fault
  | .fault _ => none
  | .refused _ => none

/-- The state under another FLAG_ORDER or TIMERS_ON_CYCLE. -/
def flagLast (s : State) : State := s.withOrder .flagLast

def coupled (s : State) : State := { s with config := { s.config with timersOnCycle := true } }

def atPc (w : Word) (s : State) : State := { s with pc := w }

def withKey (k : Nat) (s : State) : State :=
  match s.setKey k true with
  | .next t => t
  | .fault _ => s
  | .refused _ => s

/-! Control flow: vectors C1-C18. -/

theorem test_ret : stepsTo (start 0x00EE fun s => atPc 0x212 { s with sp := 1, stack := s.stack.set 0 0x204 })
    (fun t => t.pc == 0x206 && t.sp == 0 && t.stack.get 0 == 0x204) := by decide
theorem test_ret_empty : faultAfter (start 0x00EE (atPc 0x300)) = some (.stackUnderflow 0x00EE 0x300) := by decide
theorem test_jp_odd : stepsTo (start 0x1201 id) (fun t => t.pc == 0x201) := by decide
theorem test_call : stepsTo (start 0x2400 fun s => atPc 0x300 { s with sp := 15 })
    (fun t => t.pc == 0x400 && t.sp == 16 && t.stack.get 15 == 0x300) := by decide
theorem test_call_full : faultAfter (start 0x2400 fun s => atPc 0x300 { s with sp := 16 }) =
    some (.stackOverflow 0x2400 0x300) := by decide
theorem test_seByte : stepsTo (start 0x3207 fun s => atPc 0x210 (s.setV 2 7)) (fun t => t.pc == 0x214) := by decide
theorem test_seByte_no_skip : stepsTo (start 0x3207 fun s => atPc 0x210 (s.setV 2 8)) (fun t => t.pc == 0x212) := by decide
theorem test_sneByte : stepsTo (start 0x4208 fun s => atPc 0x210 (s.setV 2 7)) (fun t => t.pc == 0x214) := by decide
theorem test_sneByte_no_skip : stepsTo (start 0x4207 fun s => atPc 0x210 (s.setV 2 7)) (fun t => t.pc == 0x212) := by decide
theorem test_seReg : stepsTo (start 0x5140 fun s => atPc 0x300 ((s.setV 1 0x33).setV 4 0x33)) (fun t => t.pc == 0x304) := by
  decide
theorem test_sneReg : stepsTo (start 0x9140 fun s => atPc 0x300 ((s.setV 1 0x33).setV 4 0x34)) (fun t => t.pc == 0x304) := by
  decide
theorem test_sneReg_no_skip : stepsTo (start 0x9140 fun s => atPc 0x300 ((s.setV 1 0x33).setV 4 0x33))
    (fun t => t.pc == 0x302) := by decide
theorem test_jpV0_past_memory : stepsTo (start 0xBF01 fun s => s.setV 0 0xFF) (fun t => t.pc == 0x1000 && t.fault == none) := by
  decide

/-! ALU: vectors L1-2 to L1-4 and D1-D29. -/

theorem test_ldByte : stepsTo (start 0x6A2C id) (fun t => t.getV 10 == 0x2C && t.pc == 0x202) := by decide
theorem test_addByte_wraps : stepsTo (start 0x7402 fun s => s.setV 4 0xFF) (fun t => t.getV 4 == 1 && t.getV 15 == 0) := by
  decide
theorem test_addByte_VF : stepsTo (start 0x7F01 fun s => s.setV 15 0xFF) (fun t => t.getV 15 == 0) := by decide
theorem test_ldReg : stepsTo (start 0x8530 fun s => s.setV 3 0x10) (fun t => t.getV 5 == 0x10 && t.getV 3 == 0x10) := by decide
theorem test_orReg : stepsTo (start 0x8011 fun s => ((s.setV 0 0xF0).setV 1 0x0F).setV 15 0x55)
    (fun t => t.getV 0 == 0xFF && t.getV 15 == 0x55) := by decide
theorem test_andReg : stepsTo (start 0x8012 fun s => (s.setV 0 0xF0).setV 1 0x3C) (fun t => t.getV 0 == 0x30) := by decide
theorem test_xorReg : stepsTo (start 0x8013 fun s => (s.setV 0 0xF0).setV 1 0x3C) (fun t => t.getV 0 == 0xCC) := by decide
theorem test_addReg_carry : stepsTo (start 0x8124 fun s => (s.setV 1 250).setV 2 10)
    (fun t => t.getV 1 == 4 && t.getV 15 == 1) := by decide
/-- D10: both orders with X = F. -/
theorem test_addReg_VF :
    (stepsTo (start 0x8F14 fun s => (s.setV 15 0xF0).setV 1 0x20) (fun t => t.getV 15 == 0x10) &&
      stepsTo (start 0x8F14 fun s => flagLast ((s.setV 15 0xF0).setV 1 0x20)) (fun t => t.getV 15 == 0x01)) = true := by decide
theorem test_subReg_borrow : stepsTo (start 0x8125 fun s => (s.setV 1 5).setV 2 10)
    (fun t => t.getV 1 == 251 && t.getV 15 == 0) := by decide
/-- D15: both orders with Y = F. -/
theorem test_subReg_VF :
    (stepsTo (start 0x81F5 fun s => (s.setV 15 5).setV 1 3) (fun t => t.getV 15 == 0 && t.getV 1 == 3) &&
      stepsTo (start 0x81F5 fun s => flagLast ((s.setV 15 5).setV 1 3)) (fun t => t.getV 15 == 0 && t.getV 1 == 0xFE)) =
      true := by decide
/-- B13: Y is ignored. -/
theorem test_shr : stepsTo (start 0x82F6 fun s => s.setV 2 5) (fun t => t.getV 2 == 2 && t.getV 15 == 1) := by decide
/-- D19. -/
theorem test_shr_VF :
    (stepsTo (start 0x8F06 fun s => s.setV 15 3) (fun t => t.getV 15 == 0) &&
      stepsTo (start 0x8F06 fun s => flagLast (s.setV 15 3)) (fun t => t.getV 15 == 1)) = true := by decide
theorem test_subnReg : stepsTo (start 0x8127 fun s => (s.setV 1 0x0A).setV 2 5)
    (fun t => t.getV 1 == 0xFB && t.getV 15 == 0) := by decide
/-- D23. -/
theorem test_subnReg_VF :
    (stepsTo (start 0x8F17 fun s => (s.setV 15 3).setV 1 5) (fun t => t.getV 15 == 4) &&
      stepsTo (start 0x8F17 fun s => flagLast ((s.setV 15 3).setV 1 5)) (fun t => t.getV 15 == 1)) = true := by decide
theorem test_shl : stepsTo (start 0x820E fun s => s.setV 2 0x81) (fun t => t.getV 2 == 2 && t.getV 15 == 1) := by decide
/-- D26. -/
theorem test_shl_VF :
    (stepsTo (start 0x8F0E fun s => s.setV 15 0x81) (fun t => t.getV 15 == 2) &&
      stepsTo (start 0x8F0E fun s => flagLast (s.setV 15 0x81)) (fun t => t.getV 15 == 1)) = true := by decide
/-- D27: with the draw 0xA7. -/
theorem test_rnd_mask : (State.reset.storeRandom 3 0x0F 0xA7).getV 3 = 0x07 := by decide
theorem test_rnd_advances : stepsTo (start 0xC30F id) (fun t => t.pc == 0x202 && t.draws == 1) := by decide

/-! Index register and memory: vectors L1-7 and E1-E18. -/

theorem test_ldI : stepsTo (start 0xA2F0 id) (fun t => t.i == 0x2F0 && t.pc == 0x202) := by decide
theorem test_addI_wraps : stepsTo (start 0xF11E fun s => { (s.setV 1 1).setV 15 0x77 with i := 0xFFFF })
    (fun t => t.i == 0 && t.getV 15 == 0x77) := by decide
theorem test_addI_past_memory : stepsTo (start 0xF11E fun s => { s.setV 1 2 with i := 0xFFF }) (fun t => t.i == 0x1001) := by
  decide
theorem test_ldF_unmasked : stepsTo (start 0xF029 fun s => s.setV 0 0xFF) (fun t => t.i == 0x4FB) := by decide
theorem test_ldB : stepsTo (start 0xF633 fun s => { s.setV 6 128 with i := 0xFFD })
    (fun t => t.readByte 0xFFD == 1 && t.readByte 0xFFE == 2 && t.readByte 0xFFF == 8 && t.i == 0xFFD) := by decide
theorem test_ldB_out_of_range : faultAfter (start 0xF533 fun s => { s.setV 5 128 with i := 0xFFE }) =
    some (.memoryOutOfRange 0xF533 0x200 0x1000) := by decide
theorem test_store : stepsTo (start 0xF255 fun s => { ((s.setV 0 1).setV 1 2).setV 2 3 with i := 0x300 })
    (fun t => t.readByte 0x300 == 1 && t.readByte 0x301 == 2 && t.readByte 0x302 == 3 && t.readByte 0x303 == 0 &&
      t.i == 0x300) := by decide
theorem test_store_out_of_range : faultAfter (start 0xF055 fun s => { s with i := 0x2000 }) =
    some (.memoryOutOfRange 0xF055 0x200 0x2000) := by decide
/-- E18: glyph 0 of the default font. -/
theorem test_load : stepsTo (start 0xF465 id)
    (fun t => t.getV 0 == 0xF0 && t.getV 1 == 0x90 && t.getV 3 == 0x90 && t.getV 4 == 0xF0 && t.getV 5 == 0) := by decide
theorem test_load_all : stepsTo (start 0xFF65 fun s => { s.writeBlock 0x50F [0xAB] with i := 0x500 })
    (fun t => t.getV 15 == 0xAB && t.getV 14 == 0 && t.i == 0x500) := by decide

/-! Display: vectors F1-F10. -/

theorem test_cls : stepsTo (start 0x00E0 fun s => { s with gfx := (1#2048 <<< 5) ||| (1#2048 <<< 100) })
    (fun t => !t.gfx.pixel 5 && !t.gfx.pixel 100 && t.drawFlag && t.pc == 0x202) := by decide +kernel
/-- F2: the sprite wraps at the right edge. -/
theorem test_drw_wraps : stepsTo (start 0xD011 fun s => { ((s.setV 0 62).setV 1 1).writeBlock 0x50 [0xC3] with i := 0x50 })
    (fun t => t.gfx == (1#2048 <<< 126) ||| (1#2048 <<< 127) ||| (1#2048 <<< 68) ||| (1#2048 <<< 69) && t.getV 15 == 0 &&
      t.drawFlag) := by decide +kernel
/-- F7: a set pixel goes out. -/
theorem test_drw_collision : stepsTo (start 0xD011 fun s => { s.writeBlock 0x300 [0xFF] with i := 0x300, gfx := 1 })
    (fun t => t.gfx == 0xFE && t.getV 15 == 1) := by decide +kernel
/-- F6: the coordinate is read from VF before VF is written. -/
theorem test_drw_VF : stepsTo (start 0xDF01 fun s => { ((s.setV 15 3).setV 0 5).writeBlock 0x300 [0x80] with i := 0x300 })
    (fun t => t.gfx.pixel 323 && t.getV 15 == 0) := by decide +kernel
/-- F8: no rows, no access. -/
theorem test_drw_no_rows : stepsTo (start 0xD010 fun s => { s.setV 15 1 with i := 0xFFFF })
    (fun t => t.getV 15 == 0 && t.drawFlag && t.fault == none) := by decide +kernel
theorem test_drw_out_of_range : faultAfter (start 0xD012 fun s => { s with i := 0xFFF }) =
    some (.memoryOutOfRange 0xD012 0x200 0x1000) := by decide

/-! Keys and timers: vectors G1-G20. -/

theorem test_skp : stepsTo (start 0xE59E fun s => withKey 10 (atPc 0x220 (s.setV 5 10))) (fun t => t.pc == 0x224) := by decide
theorem test_skp_out_of_range : faultAfter (start 0xE19E fun s => s.setV 1 0x10) =
    some (.keyIndexOutOfRange 0xE19E 0x200 0x10) := by decide
theorem test_sknp : stepsTo (start 0xE5A1 fun s => withKey 10 (atPc 0x220 (s.setV 5 10))) (fun t => t.pc == 0x222) := by decide
theorem test_sknp_up : stepsTo (start 0xE5A1 fun s => atPc 0x220 (s.setV 5 10)) (fun t => t.pc == 0x224) := by decide
theorem test_ldVxDT : stepsTo (start 0xF307 fun s => { s with dt := 0x3C }) (fun t => t.getV 3 == 0x3C && t.dt == 0x3C) := by
  decide
/-- G17: the value read is DT before the cycle's own decrement. -/
theorem test_ldVxDT_coupled : stepsTo (start 0xF307 fun s => coupled { s with dt := 5 }) (fun t => t.getV 3 == 5 && t.dt == 4) := by
  decide
theorem test_ldVxK_waits : stepsTo (start 0xF20A (atPc 0x240)) (fun t => t.wait == some 2 && t.pc == 0x240) := by decide
theorem test_ldVxK_highest : stepsTo (start 0xF20A fun s => withKey 3 (withKey 9 (atPc 0x240 s)))
    (fun t => t.getV 2 == 9 && t.pc == 0x242 && t.wait == none) := by decide
/-- G16. -/
theorem test_ldDTVx :
    (stepsTo (start 0xF315 fun s => s.setV 3 5) (fun t => t.dt == 5) &&
      stepsTo (start 0xF315 fun s => coupled (s.setV 3 5)) (fun t => t.dt == 4)) = true := by decide
theorem test_ldSTVx : stepsTo (start 0xF318 fun s => s.setV 3 2) (fun t => t.st == 2) := by decide
/-- G18: the coupled cycle beeps. -/
theorem test_ldSTVx_coupled_beeps :
    (stepsTo (start 0xF318 fun s => coupled (s.setV 3 1)) (fun t => t.st == 0) &&
      cycleBeep (start 0xF318 fun s => coupled (s.setV 3 1))) = true := by decide

/-! The cycle: vectors A2, A5, A7, A8, B1, B3, B4, G19, G20. -/

theorem test_reset_cycle : faultAfter State.reset = some (.unknownOpcode 0x0000 0x0200) := by decide
theorem test_faulted_cycle : step { State.reset with fault := some (.fetchOutOfRange 0xFFF), dt := 3 } =
    .next { State.reset with fault := some (.fetchOutOfRange 0xFFF), dt := 3 } := rfl
theorem test_wait_completes : stepsTo (withKey 7 { atPc 0x240 State.reset with wait := some 2 })
    (fun t => t.getV 2 == 7 && t.wait == none && t.pc == 0x242) := by decide
theorem test_wait_goes_on : stepsTo { atPc 0x240 State.reset with wait := some 2 }
    (fun t => t == { atPc 0x240 State.reset with wait := some 2 }) := by decide +kernel
theorem test_fetch_past_memory : faultAfter (atPc 0xFFF State.reset) = some (.fetchOutOfRange 0xFFF) := by decide
theorem test_fetch_last_word : stepsTo (start 0x6001 (atPc 0xFFE)) (fun t => t.getV 0 == 1 && t.pc == 0x1000) := by decide
theorem test_fetch_odd : stepsTo (start 0x6001 (atPc 0x201)) (fun t => t.getV 0 == 1 && t.pc == 0x203) := by decide
theorem test_coupled_wait : stepsTo (start 0xF20A fun s => coupled { s with dt := 3, st := 1 })
    (fun t => t.wait == some 2 && t.dt == 2 && t.st == 0) := by decide
theorem test_coupled_fault : stepsTo (start 0x5121 fun s => coupled { s with dt := 3 })
    (fun t => t.fault == some (.unknownOpcode 0x5121 0x200) && t.dt == 3) := by decide

/-! The interface: vectors A3, A6, A9, A10, G9, L1-10. -/

/-- A6: the tick runs after a fault, and beeps. -/
theorem test_tick : Operation.tickTimers.onState { State.reset with fault := some (.fetchOutOfRange 0), dt := 3, st := 1 } =
    .next (.running { State.reset with fault := some (.fetchOutOfRange 0), dt := 2, st := 0 }, .tick true) := rfl
theorem test_tick_coupled : Operation.tickTimers.onState (coupled State.reset) = .refused .noSeparateTick := rfl
theorem test_load_bytes : stepsTo (State.reset.writeBlock 0x200 [0x12, 0x00])
    (fun t => t.pc == 0x200) := by decide
theorem test_load_too_long :
    (Operation.loadProgram (List.replicate 3585 1)).onState State.reset = .fault .programTooLarge := by
  unfold Operation.onState State.loadProgram
  dsimp only
  rw [if_pos (by rw [List.length_replicate]; decide)]
  rfl
theorem test_set_key : (withKey 12 State.reset).keys.get 12 = true := by decide

/-! Memory: writing the reset contents unlists the address, so equal memories are equal data. -/

theorem test_memory_canonical :
    Memory.write defaultFont (Memory.write defaultFont [] 0x300 7) 0x2 9 = [(0x2, 9), (0x300, 7)] ∧
    Memory.write defaultFont (Memory.write defaultFont [] 0x2 9) 0x2 0x90 = [] := by decide


/-! ### Witnesses: states and operands that meet the hypotheses of each statement, at the boundaries of its clauses -/

/-- The state an instruction leaves. -/
def after (i : Instr) (s : State) : State :=
  match exec i s with
  | .next t => t
  | .fault _ => s
  | .refused _ => s

/-- What `stepsTo` says, as a next state. -/
theorem next_of_stepsTo {s : State} {p : State → Bool} (h : stepsTo s p = true) : ∃ t, step s = .next t ∧ p t = true := by
  unfold stepsTo at h
  split at h
  · exact ⟨_, ‹_›, h⟩
  · exact absurd h (by simp)
  · exact absurd h (by simp)

def withI (w : Word) (s : State) : State := { s with i := w }

def withSp (n : Fin 17) (s : State) : State := { s with sp := n }

def waiting (x : Reg) (s : State) : State := { s with wait := some x }

theorem witness_DecodeInvertsEncode : (Instr.drw 0 1 15).wellFormed = true ∧ (Instr.drw 15 15 0).wellFormed = true := by
  decide

theorem witness_EncodeInvertsDecode : decodeWord 0x82F6 = some (.shr 2 15) := by decide

/-- Each row matches its own pattern, so every `RowDecodes` has a word. -/
theorem witness_RowDecodes : (opcodeTable.all fun r => r.matchesWord r.pattern) = true := by decide

theorem witness_LegalWordsByGroup : 0xD#4 ∈ [0x1#4, 0xD#4] := by decide

theorem witness_UnmatchedWord : Running (start 0x8128 id) ∧ (start 0x8128 id).pc.toNat ≤ 0xFFE ∧
    ∀ r ∈ opcodeTable, (start 0x8128 id).fetchWord &&& r.mask ≠ r.pattern := ⟨⟨rfl, rfl⟩, by decide, by decide⟩

theorem witness_Assembly : assemble ⟨.SHR, [.reg 1, .reg 0]⟩ = some (.shr 1 0) ∧
    assemble ⟨.DRW, [.reg 1, .reg 0, .nibble 15]⟩ = some (.drw 1 0 15) ∧
    assemble ⟨.DRW, [.reg 1, .reg 0, .nibble 16]⟩ = none := by decide

theorem witness_Fetch :
    (Running (atPc 0xFFF State.reset) ∧ 0xFFE < (atPc 0xFFF State.reset).pc.toNat) ∧
    (Running (start 0x6001 (atPc 0xFFE)) ∧ (start 0x6001 (atPc 0xFFE)).pc.toNat ≤ 0xFFE ∧
      decodeWord ((start 0x6001 (atPc 0xFFE)).readByte 0xFFE ++ (start 0x6001 (atPc 0xFFE)).readByte 0xFFF) =
        some (.ldByte 0 1)) ∧
    decodeWord ((start 0x9121 id).readByte 0x200 ++ (start 0x9121 id).readByte 0x201) = none :=
  ⟨⟨⟨rfl, rfl⟩, by decide⟩, ⟨⟨rfl, rfl⟩, by decide, by decide⟩, by decide⟩

theorem witness_StepRuns : Running (start 0x6001 id) ∧ (start 0x6001 id).pc.toNat ≤ 0xFFE ∧
    decode ((start 0x6001 id).readBlock (start 0x6001 id).pc.toNat 2) = .ok (.ldByte 0 1, []) ∧
    ∃ t, exec (.ldByte 0 1) (start 0x6001 id) = .next t :=
  ⟨⟨rfl, rfl⟩, by decide, by decide, _, rfl⟩

theorem witness_PlacedWord : 65535 < 65536 ∧ (atPc 0xFFE State.reset).pc.toNat ≤ 0xFFE := by decide

theorem witness_FaultIsSticky : (State.reset.raise (.fetchOutOfRange 0x200)).fault = some (.fetchOutOfRange 0x200) := rfl

theorem witness_FaultsArePrecise : State.reset.fault = none ∧
    ∃ t, step State.reset = .next t ∧ (t.fault == some (.unknownOpcode 0 0x200)) = true :=
  ⟨rfl, next_of_stepsTo (by decide)⟩

/-- One fault of each kind an instruction raises. -/
theorem witness_RaisedFault :
    (after .ret State.reset).fault = some (.stackUnderflow 0x00EE 0x200) ∧
    (after (.call 0) (withSp 16 State.reset)).fault = some (.stackOverflow 0x2000 0x200) ∧
    (after (.load 0) (withI 0x1000 State.reset)).fault = some (.memoryOutOfRange 0xF065 0x200 0x1000) ∧
    (after (.skp 0) (State.reset.setV 0 16)).fault = some (.keyIndexOutOfRange 0xE09E 0x200 16) := by decide

theorem witness_Coupled :
    ((coupled (start 0x6001 id)).config.timersOnCycle = true ∧ (coupled (start 0x6001 id)).fault = none ∧
      ∃ u, cycleBody (coupled (start 0x6001 id)) = .next u ∧ u.fault = none) ∧
    (∃ t, step (coupled State.reset) = .next t ∧ (t.fault != none) = true) ∧
    (start 0xF315 fun s => s.setV 3 5).config.timersOnCycle = false ∧
    (∃ t, step (start 0xF315 fun s => s.setV 3 5) = .next t ∧ (t.dt != 0) = true) ∧
    ∃ t, step (start 0xF318 fun s => s.setV 3 5) = .next t ∧ (t.st != 0) = true :=
  ⟨⟨rfl, rfl, _, rfl, rfl⟩, next_of_stepsTo (by decide), rfl, next_of_stepsTo (by decide), next_of_stepsTo (by decide)⟩

theorem witness_HighestKey :
    IsHighestKey (withKey 15 (waiting 2 State.reset)) 15 ∧ IsHighestKey (withKey 0 (waiting 2 State.reset)) 0 ∧
    NoKeyDown (waiting 2 State.reset) :=
  ⟨⟨by decide, by decide⟩, ⟨by decide, by decide⟩, by unfold NoKeyDown; decide⟩

theorem witness_WaitStep : (waiting 2 State.reset).fault = none ∧ (waiting 2 State.reset).wait = some 2 := ⟨rfl, rfl⟩

theorem witness_Call : (withSp 15 State.reset).sp.val < 16 ∧ (withSp 16 State.reset).sp.val = 16 := by decide

theorem witness_Return : (withSp 1 State.reset).sp.val = (0 : Fin 16).val + 1 ∧
    (withSp 16 State.reset).sp.val = (15 : Fin 16).val + 1 ∧ State.reset.sp.val = 0 := by decide

theorem witness_ReturnResumes : State.reset.sp.val < 16 ∧
    ∃ t, exec (.call 0x300) State.reset = .next t ∧ t.stack = (after (.call 0x300) State.reset).stack :=
  ⟨by decide, _, rfl, rfl⟩

/-- Both settings of FLAG_ORDER, and operands that are VF and that are not. -/
theorem witness_FlagOrder : State.reset.config.flagOrder = .tableOrder ∧ (flagLast State.reset).config.flagOrder = .flagLast ∧
    (14 : Reg) ≠ regF ∧ (15 : Reg) = regF ∧ (Instr.shl 1 2) ∈ [Instr.addReg 1 2, .shl 1 2] := by decide

theorem witness_DecimalDigits :
    (withI 0xFFD State.reset).i.toNat + 2 ≤ 0xFFF ∧
    (0xFFF < (withI 0xFFE State.reset).i.toNat + 2 ∧
      ∀ j < 3, 0xFFF < (withI 0xFFE State.reset).i.toNat + j → 2 ≤ j) ∧
    (0xFFF < (withI 0xFFF State.reset).i.toNat + 1 ∧
      ∀ j < 3, 0xFFF < (withI 0xFFF State.reset).i.toNat + j → 1 ≤ j) ∧
    0xFFF < (withI 0xFFFF State.reset).i.toNat + 0 := by decide

theorem witness_RegisterBlock :
    (withI 0xFF0 State.reset).i.toNat + (15 : Reg).val ≤ 0xFFF ∧ (withI 0xFFF State.reset).i.toNat + (0 : Reg).val ≤ 0xFFF ∧
    0xFFF < (withI 0xFF1 State.reset).i.toNat + (15 : Reg).val ∧
    0xFFF < (withI 0x1000 State.reset).i.toNat + (0 : Reg).val := by decide

theorem witness_InRange :
    InRange (withI 0xFF1 State.reset) 15 ∧ InRange (withI 0xFFFF State.reset) 0 ∧ InRange (withI 0xFF0 State.reset) 16 ∧
    ¬ InRange (withI 0xFF2 State.reset) 15 ∧ ¬ InRange (withI 0x1000 State.reset) 1 := by
  unfold InRange; decide

theorem witness_StoreThenLoad : InRange (withI 0xFFF State.reset) ((0 : Reg).val + 1) ∧
    ∃ t, exec (.store 0) (withI 0xFFF State.reset) = .next t ∧ t.i = (withI 0xFFF State.reset).i :=
  ⟨by unfold InRange; decide, _, rfl, rfl⟩

theorem witness_StoredOpcode : 1 ≤ (1 : Reg).val ∧
    (withI 0x202 State.reset).i.toNat = (withI 0x202 State.reset).pc.toNat + 2 ∧
    InRange (withI 0x202 State.reset) ((1 : Reg).val + 1) := ⟨by decide, by decide, by unfold InRange; decide⟩

/-- A sprite that collides with a pixel (glyph 0 over pixel (0, 0)), and one on a blank display. -/
theorem witness_Draw :
    (∃ px < 64, ∃ py < 32, pixelAt { State.reset with gfx := 1 } px py ∧
      SpriteCovers { State.reset with gfx := 1 } 0 0 5 px py) ∧
    (∀ px < 64, ∀ py < 32, pixelAt State.reset px py → ¬ SpriteCovers State.reset 0 0 5 px py) := by
  refine ⟨⟨0, by decide, 0, by decide, by unfold pixelAt; decide +kernel,
    0, by decide, 0, by decide, by decide, by decide, by decide⟩, fun px _ py _ h => ?_⟩
  simp [pixelAt, Gfx.pixel, State.reset, State.resetWith] at h

theorem witness_DrawTwice : (0 : Reg) ≠ regF ∧ (1 : Reg) ≠ regF ∧ InRange State.reset 15 ∧ State.reset.gfx = 0 :=
  ⟨by decide, by decide, by unfold InRange; decide, rfl⟩

theorem witness_KeySkips : ((State.reset.setV 1 15).getV 1).toNat = (15 : Reg).val ∧
    0x0F < ((State.reset.setV 1 16).getV 1).toNat := by decide

theorem witness_KeyInstruction : (withKey 15 State.reset).wait = none ∧ IsHighestKey (withKey 15 State.reset) 15 ∧
    NoKeyDown State.reset := ⟨by decide, ⟨by decide, by decide⟩, by unfold NoKeyDown; decide⟩

theorem witness_Tick : State.reset.config.timersOnCycle = false ∧ (coupled State.reset).config.timersOnCycle = true :=
  ⟨rfl, rfl⟩

theorem witness_LoadProgram : (List.replicate 3584 (1 : Byte)).length ≤ 3584 ∧
    3584 < (List.replicate 3585 (1 : Byte)).length := by
  rw [List.length_replicate, List.length_replicate]; decide

/-- Keys 15 and 16, either side of the boundary. -/
theorem witness_KeyOperation : (withKey 15 State.reset).keys.get 15 = true ∧
    (Operation.setKey 16 true).onState State.reset = .refused .noSuchKey := ⟨by decide, rfl⟩

/-- The last font byte, the first byte after the font, and the ends of the program area. -/
theorem witness_Reset : (after .ret State.reset).afterReset.readByte 79 = 0x80 ∧
    (after .ret State.reset).afterReset.readByte 80 = 0 ∧ State.reset.afterReset.readByte 0x200 = 0 ∧
    State.reset.afterReset.readByte 0xFFF = 0 := by decide

theorem witness_NothingRuns : ∀ op ∈ [Operation.executeCycle, .loadProgram [], .tickTimers], op ≠ .reset := by decide

theorem witness_RegisterWriters : (∃ t, exec (.load 14) State.reset = .next t) ∧ writesReg (.load 14) 15 = false ∧
    writesReg (.load 15) 15 = true := ⟨⟨_, rfl⟩, by decide, by decide⟩

/-- Every element is changed by an instruction the statement names. -/
theorem witness_StateElements :
    (after (.ldI 1) State.reset).i ≠ State.reset.i ∧ (after (.call 0) State.reset).sp ≠ State.reset.sp ∧
    (after (.call 0) State.reset).stack ≠ State.reset.stack ∧
    (after (.store 0) State.reset).mem ≠ State.reset.mem ∧
    (after .cls { State.reset with gfx := 1 }).gfx ≠ 1 ∧
    (after .cls State.reset).drawFlag ≠ State.reset.drawFlag ∧
    (after (.ldDTVx 0) (State.reset.setV 0 1)).dt ≠ State.reset.dt ∧
    (after (.ldSTVx 0) (State.reset.setV 0 1)).st ≠ State.reset.st ∧
    (after (.ldVxK 0) State.reset).wait ≠ State.reset.wait ∧
    (after (.rnd 0 0) State.reset).draws ≠ State.reset.draws := by decide +kernel

theorem witness_KeysReach : (∀ x, Instr.cls ≠ .skp x) ∧ (∀ x, Instr.cls ≠ .sknp x) ∧ ∀ x, Instr.cls ≠ .ldVxK x := by
  refine ⟨?_, ?_, ?_⟩ <;> intro x <;> exact fun h => nomatch h

/-- The invariant holds at a state with listed memory, from which a step goes on, and at one that holds a fault. -/
theorem witness_Inv : (start 0x6001 id).Inv ∧ (∃ t, step (start 0x6001 id) = .next t ∧ (t.v.get 0 == 1) = true) ∧
    (after .ret State.reset).Inv := by
  refine ⟨⟨by decide, fun r h => nomatch h⟩, next_of_stepsTo (by decide), by decide, fun r h => ?_⟩
  have : r = .stackUnderflow 0x00EE 0x200 := by
    have h2 : (after .ret State.reset).fault = some (.stackUnderflow 0x00EE 0x200) := by decide
    simpa using h.symm.trans h2
  subst this
  exact ⟨by decide, by decide, by decide, by decide⟩

theorem witness_EverySchedule : (Block.running (start 0x6001 id)).Inv ∧ (Block.beforeReset defaultConfig).Inv :=
  ⟨witness_Inv.1, trivial⟩

end Sys2Proof.Tests
end

/-! PROOFS. The decoder on encoded opcodes. -/

namespace Sys2Proof

/-- The decoder reads back every field the encoder wrote (R72-R75). -/
theorem decodeWord_encodeWord {i : Instr} (hi : i.wellFormed = true) : decodeWord (encodeWord i) = some i := by
  cases i with
  | drw x y n =>
    have hn : n < 16 := by simpa [Instr.wellFormed] using hi
    simp [encodeWord, decodeWord, Nat.mod_eq_of_lt hn]
  | cls | ret => decide
  | jp | call | ldI | jpV0 | seByte | sneByte | ldByte | addByte | rnd => simp [encodeWord, decodeWord]
  | seReg | sneReg => simp [encodeWord, decodeWord]
  | ldReg | orReg | andReg | xorReg | addReg | subReg | shr | subnReg | shl =>
    simp [encodeWord, decodeWord, decodeGroup8]
  | skp | sknp => simp [encodeWord, decodeWord, decodeGroupE]
  | ldVxDT | ldVxK | ldDTVx | ldSTVx | addI | ldF | ldB | store | load =>
    simp [encodeWord, decodeWord, decodeGroupF]

theorem decodeGroup8_wellFormed {x y : Reg} {n : Nibble} {i : Instr} (h : decodeGroup8 x y n = some i) :
    i.wellFormed = true := by
  unfold decodeGroup8 at h
  split at h <;> cases h <;> rfl

theorem decodeGroupE_wellFormed {x : Reg} {kk : Byte} {i : Instr} (h : decodeGroupE x kk = some i) :
    i.wellFormed = true := by
  unfold decodeGroupE at h
  split at h <;> cases h <;> rfl

theorem decodeGroupF_wellFormed {x : Reg} {kk : Byte} {i : Instr} (h : decodeGroupF x kk = some i) :
    i.wellFormed = true := by
  unfold decodeGroupF at h
  split at h <;> cases h <;> rfl

/-- Every decoded instruction fits its fields: the sprite height is the four-bit N field (R73). -/
theorem decodeWord_wellFormed {w : Word} {i : Instr} (h : decodeWord w = some i) : i.wellFormed = true := by
  unfold decodeWord at h
  split at h
  -- the groups whose legality rests on more than the group field
  case h_1 =>
    split at h
    · cases h; rfl
    · split at h <;> cases h; rfl
  case h_6 | h_10 => split at h <;> cases h; rfl
  case h_9 => exact decodeGroup8_wellFormed h
  case h_15 => exact decodeGroupE_wellFormed h
  case h_16 => exact decodeGroupF_wellFormed h
  -- DXYN
  case h_14 => cases h; simpa [Instr.wellFormed] using (nField w).isLt
  -- the groups in which every word is legal
  all_goals cases h; rfl

end Sys2Proof

/-! PROOFS. What any instruction can do to the fault record and to memory. -/

namespace Sys2Proof.Machine

/-- The memory is in its canonical form (R50). -/
def State.MemWf (s : State) : Prop := Memory.wf s.config.font s.mem

/-- A state with the same memory and parameters has the canonical form too. -/
theorem State.MemWf.of_eq {s t : State} (h : s.MemWf) (hm : t.mem = s.mem) (hc : t.config = s.config) : t.MemWf := by
  unfold State.MemWf
  rw [hm, hc]
  exact h

/-- A block stored inside the address space keeps the canonical form (R57, R58). -/
theorem State.MemWf.writeBlock {s : State} (h : s.MemWf) {a : Nat} {bs : List Byte} (ha : a + bs.length ≤ 4096) :
    (s.writeBlock a bs).MemWf :=
  Memory.writeBlock_wf _ h (.inr ha)

/-- A non-empty block that passes the bounds check ends inside the address space (R57). -/
theorem add_le_of_outOfRange_eq_none {a n : Nat} (h : outOfRange a n = none) (hn : 0 < n) : a + n ≤ 4096 := by
  have := (outOfRange_eq_none_iff a n).1 h (n - 1) (by omega)
  omega

/-- The two ways an instruction ends: it completes, or it raises a fault that names the instruction and its cause and
changes nothing else (R223, R226). -/
inductive ExecOutcome (i : Instr) (s : State) : Result → Prop where
  | completes {t : State} (fault : t.fault = s.fault) (config : t.config = s.config) (mem : s.MemWf → t.MemWf) :
      ExecOutcome i s (.next t)
  | raises {r : FaultRecord} (opcode : r.opcode = some (encodeWord i)) (cause : r.truthful s) :
      ExecOutcome i s (.next (s.raise r))

/-- An instruction that does not store completes when it leaves fault, parameters and memory alone. -/
theorem ExecOutcome.of_mem_eq {i : Instr} {s t : State} (hf : t.fault = s.fault) (hc : t.config = s.config)
    (hm : t.mem = s.mem) : ExecOutcome i s (.next t) :=
  .completes hf hc fun h => h.of_eq hm hc

/-- An access through I raises a truthful MemoryOutOfRange or completes with its effect (R57, R220). -/
theorem State.checked_outcome {s effect : State} {i : Instr} {n : Nat} (hi : i.wellFormed = true)
    (ha : accessesMemory i) (h : outOfRange s.indexBase n = none → ExecOutcome i s (.next effect)) :
    ExecOutcome i s (s.checked i n effect) := by
  rcases s.checked_cases i n effect with ⟨a, hout, heq⟩ | ⟨hin, heq⟩
  · rw [heq]
    exact .raises rfl ⟨rfl, outOfRange_eq_some hout, i, decodeWord_encodeWord hi, ha⟩
  · rw [heq]
    exact h hin

/-- A store through I of a non-empty block, whole inside memory when the check passes, keeps the canonical form. -/
theorem State.checked_writeBlock_outcome {s : State} {i : Instr} {bs : List Byte} {n : Nat}
    (hi : i.wellFormed = true) (ha : accessesMemory i) (hlen : bs.length = n) (hn : 0 < n) :
    ExecOutcome i s (s.checked i n (s.writeBlock s.indexBase bs).advance) :=
  s.checked_outcome hi ha fun hin =>
    have hle : s.indexBase + bs.length ≤ 4096 := hlen ▸ add_le_of_outOfRange_eq_none hin hn
    .completes rfl rfl fun hm => (hm.writeBlock hle).of_eq rfl rfl

/-- A key skip raises a truthful KeyIndexOutOfRange or moves pc (R191-R193, R220). -/
theorem State.keySkip_outcome {s : State} {i : Instr} {x : Reg} {level : Bool} (h : i = .skp x ∨ i = .sknp x) :
    ExecOutcome i s (s.keySkip i x level) := by
  unfold State.keySkip
  split
  · rename_i hkey
    have hdec : decodeWord (encodeWord i) = some (.skp x) ∨ decodeWord (encodeWord i) = some (.sknp x) := by
      rcases h with rfl | rfl
      · exact .inl (decodeWord_encodeWord rfl)
      · exact .inr (decodeWord_encodeWord rfl)
    exact .raises rfl ⟨rfl, (keyOperand_eq_none_iff _).1 hkey, x, rfl, hdec⟩
  · exact .of_mem_eq rfl rfl rfl

/-- RET raises a truthful StackUnderflow or returns (R101). -/
theorem execRet_outcome (s : State) : ExecOutcome .ret s (execRet s) := by
  unfold execRet
  split
  · rename_i hpop
    exact .raises rfl ⟨rfl, Fin.ext ((State.pop_eq_none_iff s).1 hpop), by decide⟩
  · rename_i hpop
    obtain ⟨_, rfl, -⟩ := State.pop_eq_some hpop
    exact .of_mem_eq rfl rfl rfl

/-- CALL raises a truthful StackOverflow or jumps (R103). -/
theorem execCall_outcome (nnn : Addr12) (s : State) : ExecOutcome (.call nnn) s (execCall nnn s) := by
  unfold execCall
  split
  · rename_i hpush
    exact .raises rfl ⟨rfl, Fin.ext ((State.push_eq_none_iff s s.pc).1 hpush), nnn, decodeWord_encodeWord rfl⟩
  · rename_i hpush
    obtain ⟨_, rfl⟩ := State.push_eq_some hpush
    exact .of_mem_eq rfl rfl rfl

/-- FX0A enters the wait or takes a key (R195). -/
theorem execLdVxK_outcome (x : Reg) (s : State) : ExecOutcome (.ldVxK x) s (execLdVxK x s) := by
  unfold execLdVxK
  split <;> exact .of_mem_eq rfl rfl rfl

/-- Every instruction completes, or raises a fault that names it and tells the truth about its cause. -/
theorem exec_outcome {i : Instr} (hi : i.wellFormed = true) (s : State) : ExecOutcome i s (exec i s) := by
  cases i with
  | ret => exact execRet_outcome s
  | call nnn => exact execCall_outcome nnn s
  | ldVxK x => exact execLdVxK_outcome x s
  | skp x => exact State.keySkip_outcome (.inl rfl)
  | sknp x => exact State.keySkip_outcome (.inr rfl)
  | drw x y n => exact s.checked_outcome hi (.inl ⟨x, y, n, rfl⟩) fun _ => .of_mem_eq rfl rfl rfl
  | load x => exact s.checked_outcome hi (.inr (.inr (.inr ⟨x, rfl⟩))) fun _ => .of_mem_eq rfl rfl rfl
  | ldB x => exact State.checked_writeBlock_outcome hi (.inr (.inl ⟨x, rfl⟩)) rfl (by decide)
  | store x =>
    exact State.checked_writeBlock_outcome hi (.inr (.inr (.inl ⟨x, rfl⟩))) (s.length_regBlock x) (Nat.succ_pos _)
  | addReg | subReg | shr | subnReg | shl => exact .of_mem_eq (by simp) (by simp) (by simp)
  | cls | jp | seByte | sneByte | seReg | ldByte | addByte | ldReg | orReg | andReg | xorReg | sneReg | ldI | jpV0 | rnd
  | ldVxDT | ldDTVx | ldSTVx | addI | ldF => exact .of_mem_eq rfl rfl rfl

end Sys2Proof.Machine

/-! PROOFS. The invariant under every cycle. -/

namespace Sys2Proof.Machine

theorem State.Inv.memWf {s : State} (h : s.Inv) : s.MemWf := h.1

/-- A machine without a fault has the invariant as soon as its memory is in canonical form. -/
theorem State.Inv.of_fault_eq_none {s : State} (hm : s.MemWf) (hf : s.fault = none) : s.Inv :=
  ⟨hm, fun _ hr => nomatch hf.symm.trans hr⟩

/-- The invariant holds after a truthful fault is raised with no key awaited. -/
theorem State.Inv.raise {s : State} {r : FaultRecord} (hm : s.MemWf) (hw : s.wait = none) (hr : r.truthful s) :
    (s.raise r).Inv := by
  refine ⟨hm, fun r' h => ?_⟩
  obtain rfl : r = r' := Option.some.inj h
  exact ⟨hw, hr⟩

/-- The invariant reads neither the timers nor draw_flag nor the keys, so the host may change them at any time. -/
theorem State.Inv.set_unread {s : State} (h : s.Inv) (dt st : Byte) (drawFlag : Bool) (keys : Vector Bool 16) :
    State.Inv { s with dt := dt, st := st, drawFlag := drawFlag, keys := keys } := h

/-- A tick keeps the invariant, after a fault too (R239). -/
theorem State.Inv.tick {s : State} (h : s.Inv) : s.tick.Inv :=
  h.set_unread (timerTick s.dt) (timerTick s.st) s.drawFlag s.keys

theorem State.Inv.endCycle {s : State} (h : s.Inv) : s.endCycle.Inv := by
  unfold State.endCycle
  split
  · exact h.tick
  · exact h

/-- A store inside the address space keeps the invariant, whether or not a fault is recorded. -/
theorem State.Inv.writeBlock {s : State} (h : s.Inv) {a : Nat} {bs : List Byte} (ha : a + bs.length ≤ 4096) :
    (s.writeBlock a bs).Inv :=
  ⟨h.memWf.writeBlock ha, h.2⟩

/-- A well-formed instruction run by a machine without a fault leaves the invariant. -/
theorem exec_inv {i : Instr} {s : State} (hi : i.wellFormed = true) (h : s.Inv) (hf : s.fault = none)
    (hw : s.wait = none) {t : State} (ht : exec i s = .next t) : t.Inv := by
  have hout := exec_outcome hi s
  rw [ht] at hout
  cases hout with
  | completes fault config mem => exact .of_fault_eq_none (mem h.memWf) (fault.trans hf)
  | raises opcode cause => exact .raise h.memWf hw cause

/-- Fetch, decode and execute leave the invariant: the fetch and decode faults are truthful as well (R59, R76, R87). -/
theorem fetchExecute_inv {s t : State} (h : s.Inv) (hf : s.fault = none) (hw : s.wait = none)
    (ht : fetchExecute s = .next t) : t.Inv := by
  unfold fetchExecute at ht
  split at ht
  · rename_i hpc
    cases ht
    exact .raise h.memWf hw ⟨rfl, hpc⟩
  · split at ht
    · rename_i hdec
      cases ht
      exact .raise h.memWf hw ⟨rfl, hdec⟩
    · rename_i hdec
      exact exec_inv (decodeWord_wellFormed hdec) h hf hw ht

/-- The wait step writes V registers, wait and pc at most, so it raises nothing and stores nothing (R88). -/
theorem waitStep_inv {s : State} (h : s.Inv) (hf : s.fault = none) (x : Reg) : (waitStep x s).Inv := by
  unfold waitStep
  split
  · exact .of_fault_eq_none h.memWf hf
  · exact h

theorem cycleBody_inv {s t : State} (h : s.Inv) (hf : s.fault = none) (ht : cycleBody s = .next t) : t.Inv := by
  unfold cycleBody at ht
  split at ht
  · rename_i x _
    cases ht
    exact waitStep_inv h hf x
  · rename_i hw
    exact fetchExecute_inv h hf hw ht

/-- A cycle ends with a next state only when its body does, and then with the timer step of that state (R89). -/
theorem finishCycle_eq_next {o : Result} {t : State} (h : finishCycle o = .next t) :
    ∃ u, o = .next u ∧ t = u.endCycle := by
  cases o with
  | next u => exact ⟨u, rfl, by cases h; rfl⟩
  | fault | refused => cases h

/-- Every cycle keeps the invariant. -/
theorem step_inv {s t : State} (h : s.Inv) (ht : step s = .next t) : t.Inv := by
  unfold step cycle at ht
  split at ht
  · cases ht
    exact h
  · rename_i hf
    obtain ⟨u, hu, rfl⟩ := finishCycle_eq_next ht
    exact (cycleBody_inv h hf hu).endCycle

end Sys2Proof.Machine

/-! PROOFS. The invariant under every operation of the interface, and under every schedule of them. -/

namespace Sys2Proof.Machine

/-- Reset leaves the invariant, whatever the parameters and the draw counter (R260). -/
theorem State.resetWith_inv (c : Config) (n : Nat) : (State.resetWith c n).Inv :=
  .of_fault_eq_none (Memory.nil_wf c.font) rfl

/-- A program that fits is stored inside the address space (R266, R267). -/
theorem State.loadProgram_inv {s t : State} {bytes : List Byte} (h : s.Inv) (ht : s.loadProgram bytes = .next t) :
    t.Inv := by
  unfold State.loadProgram maxProgramLength at ht
  split at ht
  · cases ht
  · cases ht
    exact h.writeBlock (by omega)

theorem State.tickTimers_inv {s t : State} (h : s.Inv) (ht : s.tickTimers = .next t) : t.Inv := by
  unfold State.tickTimers at ht
  split at ht
  · cases ht
  · cases ht
    exact h.tick

theorem State.setKey_inv {s t : State} {k : Nat} {down : Bool} (h : s.Inv) (ht : s.setKey k down = .next t) :
    t.Inv := by
  unfold State.setKey at ht
  split at ht
  · cases ht
    exact h.set_unread s.dt s.st s.drawFlag _
  · cases ht

/-- An operation with a reply goes on to a block only from a next state, and that is the block's state. -/
theorem replying_eq_next {reply : State → Reply} {o : Result} {b : Block} {r : Reply}
    (h : replying reply o = .next (b, r)) : ∃ t, o = .next t ∧ b = .running t ∧ r = reply t := by
  cases o with
  | next t => cases h; exact ⟨t, rfl, rfl, rfl⟩
  | fault | refused => cases h

/-- Every operation of the interface keeps the invariant of a running block (R6). -/
theorem Operation.onState_inv {op : Operation} {s : State} {b : Block} {r : Reply} (h : s.Inv)
    (hb : op.onState s = .next (b, r)) : b.Inv := by
  cases op with
  | reset => cases hb; exact State.resetWith_inv s.config s.draws
  | loadProgram bytes =>
    obtain ⟨t, ht, rfl, -⟩ := replying_eq_next hb
    exact State.loadProgram_inv h ht
  | executeCycle =>
    obtain ⟨t, ht, rfl, -⟩ := replying_eq_next hb
    exact step_inv h ht
  | tickTimers =>
    obtain ⟨t, ht, rfl, -⟩ := replying_eq_next hb
    exact State.tickTimers_inv h ht
  | setKey k down =>
    obtain ⟨t, ht, rfl, -⟩ := replying_eq_next hb
    exact State.setKey_inv h ht
  | clearDrawFlag => cases hb; exact h.set_unread s.dt s.st false s.keys
  | readState => cases hb; exact h

/-- Before the first reset only a reset goes on, to the reset state (R39). -/
theorem Operation.onFresh_eq_next {op : Operation} {c : Config} {b : Block} {r : Reply}
    (h : op.onFresh c = .next (b, r)) : op = .reset ∧ b = .running (State.resetWith c 0) := by
  cases op with
  | reset => cases h; exact ⟨rfl, rfl⟩
  | loadProgram | executeCycle | tickTimers | setKey | clearDrawFlag | readState => cases h

theorem Operation.perform_inv {op : Operation} {b b' : Block} {r : Reply} (h : b.Inv)
    (hb : op.perform b = .next (b', r)) : b'.Inv := by
  cases b with
  | beforeReset c =>
    obtain ⟨-, rfl⟩ := Operation.onFresh_eq_next hb
    exact State.resetWith_inv c 0
  | running s => exact Operation.onState_inv h hb

/-- One operation, accepted or not, keeps the invariant of the block. -/
theorem Block.Inv.after {b : Block} (h : b.Inv) (op : Operation) : (b.after op).Inv := by
  unfold Block.after
  split
  · rename_i hb
    exact Operation.perform_inv h hb
  · exact h
  · exact h

/-- What every single operation keeps, every schedule keeps. -/
theorem Block.run_induction {P : Block → Prop} (hop : ∀ b op, P b → P (b.after op)) {b : Block} (hb : P b)
    (schedule : List Operation) : P (b.run schedule) := by
  induction schedule generalizing b with
  | nil => exact hb
  | cons op ops ih => exact ih (hop b op hb)

/-- Settles O54: every operation keeps the invariant, so by induction on the schedule every schedule does. -/
theorem everyScheduleKeepsInvariant : Obligations.EveryScheduleKeepsInvariant := by
  intro b schedule hb
  exact Block.run_induction (P := Block.Inv) (fun _ op h => h.after op) hb schedule

end Sys2Proof.Machine

/-! PROOFS. Before the first reset (R39, decision D26). -/

namespace Sys2Proof.Machine

theorem Operation.perform_beforeReset {op : Operation} (h : op ≠ .reset) (c : Config) :
    op.perform (.beforeReset c) = .refused .beforeFirstReset := by
  cases op with
  | reset => exact absurd rfl h
  | loadProgram | executeCycle | tickTimers | setKey | clearDrawFlag | readState => rfl

theorem Block.after_beforeReset {op : Operation} (h : op ≠ .reset) (c : Config) :
    (Block.beforeReset c).after op = .beforeReset c := by
  simp [Block.after, Operation.perform_beforeReset h]

theorem Block.run_beforeReset (c : Config) {schedule : List Operation} (h : ∀ op ∈ schedule, op ≠ .reset) :
    (Block.beforeReset c).run schedule = .beforeReset c := by
  induction schedule with
  | nil => rfl
  | cons op ops ih =>
    obtain ⟨hop, hops⟩ := List.forall_mem_cons.1 h
    calc (Block.beforeReset c).run (op :: ops)
      _ = ((Block.beforeReset c).after op).run ops := rfl
      _ = (Block.beforeReset c).run ops := by rw [Block.after_beforeReset hop]
      _ = .beforeReset c := ih hops

/-- Settles O47: every operation but reset is refused, so by induction a schedule without a reset changes nothing. -/
theorem nothingRunsBeforeFirstReset : Obligations.NothingRunsBeforeFirstReset :=
  ⟨fun c _ h => Block.run_beforeReset c h, fun c _ h => Operation.perform_beforeReset h c, fun _ => rfl⟩

end Sys2Proof.Machine

/-! PROOFS. What any instruction can write: the elements of the state, and within the registers only those of
`writesReg` (R20-R33). -/

namespace Sys2Proof.Machine

/-- The registers `v` differ from those of `s` at most where `i` may write. -/
def RegsKept (i : Instr) (s : State) (v : Vector Byte 16) : Prop := ∀ r, writesReg i r = false → v.get r = s.getV r

/-- What an instruction answers, by the state elements it writes, each with the instructions that write it. -/
inductive ExecWrites (i : Instr) (s : State) : Result → Prop where
  | raises (r : FaultRecord) : ExecWrites i s (.next (s.raise r))
  | pc (pc : Word) : ExecWrites i s (.next { s with pc := pc })
  | regs {v : Vector Byte 16} (hv : RegsKept i s v) (pc : Word) : ExecWrites i s (.next { s with v := v, pc := pc })
  | index (writer : (∃ nnn, i = .ldI nnn) ∨ (∃ x, i = .addI x) ∨ ∃ x, i = .ldF x) (w pc : Word) :
      ExecWrites i s (.next { s with i := w, pc := pc })
  | pops (writer : i = .ret) (sp : Fin 17) (pc : Word) : ExecWrites i s (.next { s with sp := sp, pc := pc })
  | pushes (writer : ∃ nnn, i = .call nnn) (stack : Vector Word 16) (sp : Fin 17) (pc : Word) :
      ExecWrites i s (.next { s with stack := stack, sp := sp, pc := pc })
  | memory (writer : (∃ x, i = .ldB x) ∨ ∃ x, i = .store x) (mem : Memory) (pc : Word) :
      ExecWrites i s (.next { s with mem := mem, pc := pc })
  | display (writer : i = .cls ∨ ∃ x y n, i = .drw x y n) {v : Vector Byte 16} (hv : RegsKept i s v) (gfx : Gfx)
      (pc : Word) : ExecWrites i s (.next { s with v := v, gfx := gfx, drawFlag := true, pc := pc })
  | delay (writer : ∃ x, i = .ldDTVx x) (dt : Byte) (pc : Word) : ExecWrites i s (.next { s with dt := dt, pc := pc })
  | sound (writer : ∃ x, i = .ldSTVx x) (st : Byte) (pc : Word) : ExecWrites i s (.next { s with st := st, pc := pc })
  | waits (writer : ∃ x, i = .ldVxK x) {v : Vector Byte 16} (hv : RegsKept i s v) (wait : Option Reg) (pc : Word) :
      ExecWrites i s (.next { s with v := v, wait := wait, pc := pc })
  | draws (writer : ∃ x kk, i = .rnd x kk) {v : Vector Byte 16} (hv : RegsKept i s v) (draws : Nat) (pc : Word) :
      ExecWrites i s (.next { s with v := v, draws := draws, pc := pc })

/-! ### The registers -/

/-- A write to a register that `i` may write. -/
theorem RegsKept.setV {i : Instr} {s t : State} (h : RegsKept i s t.v) {x : Reg} (hx : writesReg i x = true)
    (b : Byte) : RegsKept i s (t.setV x b).v := by
  intro r hr
  have hne : r ≠ x := by
    rintro rfl
    simp [hx] at hr
  exact (t.getV_setV_of_ne hne b).trans (h r hr)

theorem RegsKept.refl (i : Instr) (s : State) : RegsKept i s s.v := fun _ _ => rfl

theorem RegsKept.writeFlagAndSum {i : Instr} {x : Reg} (hx : writesReg i x = true) (hF : writesReg i regF = true)
    (s : State) (flag result : Byte) : RegsKept i s (s.writeFlagAndSum x flag result).v := by
  unfold State.writeFlagAndSum
  split
  · exact ((RegsKept.refl i s).setV hF _).setV hx _
  · exact ((RegsKept.refl i s).setV hx _).setV hF _

theorem RegsKept.writeFlagThenResult {i : Instr} {x : Reg} (hx : writesReg i x = true) (hF : writesReg i regF = true)
    (s : State) (y : Reg) (flag : Byte) (result : Byte → Byte → Byte) :
    RegsKept i s (s.writeFlagThenResult x y flag result).v := by
  unfold State.writeFlagThenResult
  split
  · exact ((RegsKept.refl i s).setV hF _).setV hx _
  · exact ((RegsKept.refl i s).setV hx _).setV hF _

theorem RegsKept.loadRegs (s : State) (x : Reg) : RegsKept (.load x) s (s.loadRegs x).v := by
  intro r hr
  have hgt : ¬ r.val ≤ x.val := by simpa [writesReg] using hr
  exact (s.getV_loadRegs x r).trans (if_neg hgt)

/-! ### The shared operations -/

/-- A state that differs in registers and pc at most. -/
theorem ExecWrites.of_onlyRegsPc {i : Instr} {s t : State} (h : OnlyRegsPc s t) (hv : RegsKept i s t.v) :
    ExecWrites i s (.next t) := by
  rw [h]
  exact .regs hv _

/-- One register written, then the sequential advance. -/
theorem ExecWrites.setV {i : Instr} {x : Reg} (hx : writesReg i x = true) (s : State) (b : Byte) :
    ExecWrites i s (.next (s.setV x b).advance) :=
  .regs ((RegsKept.refl i s).setV hx b) _

theorem State.writeFlagAndSum_onlyRegsPc (s : State) (x : Reg) (flag result : Byte) :
    OnlyRegsPc s (s.writeFlagAndSum x flag result).advance := by
  unfold State.writeFlagAndSum
  split <;> rfl

theorem State.writeFlagThenResult_onlyRegsPc (s : State) (x y : Reg) (flag : Byte) (result : Byte → Byte → Byte) :
    OnlyRegsPc s (s.writeFlagThenResult x y flag result).advance := by
  unfold State.writeFlagThenResult
  split <;> rfl

theorem ExecWrites.writeFlagThenResult {i : Instr} {x : Reg} (hx : writesReg i x = true)
    (hF : writesReg i regF = true) (s : State) (y : Reg) (flag : Byte) (result : Byte → Byte → Byte) :
    ExecWrites i s (.next (s.writeFlagThenResult x y flag result).advance) :=
  .of_onlyRegsPc (s.writeFlagThenResult_onlyRegsPc x y flag result) (.writeFlagThenResult hx hF s y flag result)

/-- A checked access writes what its effect writes, or raises (R57). -/
theorem ExecWrites.checked {i : Instr} {s effect : State} (h : ExecWrites i s (.next effect)) (n : Nat) :
    ExecWrites i s (s.checked i n effect) := by
  rcases s.checked_cases i n effect with ⟨a, -, heq⟩ | ⟨-, heq⟩ <;> rw [heq]
  · exact .raises _
  · exact h

/-- A key skip moves pc, or raises (R191-R193). -/
theorem ExecWrites.keySkip (i : Instr) (s : State) (x : Reg) (level : Bool) :
    ExecWrites i s (s.keySkip i x level) := by
  unfold State.keySkip
  split
  · exact .raises _
  · exact .pc _

theorem execRet_writes (s : State) : ExecWrites .ret s (execRet s) := by
  unfold execRet
  split
  · exact .raises _
  · rename_i hpop
    obtain ⟨_, rfl, -⟩ := State.pop_eq_some hpop
    exact .pops rfl _ _

theorem execCall_writes (nnn : Addr12) (s : State) : ExecWrites (.call nnn) s (execCall nnn s) := by
  unfold execCall
  split
  · exact .raises _
  · rename_i hpush
    obtain ⟨_, rfl⟩ := State.push_eq_some hpush
    exact .pushes ⟨nnn, rfl⟩ _ _ _

theorem execLdVxK_writes (x : Reg) (s : State) : ExecWrites (.ldVxK x) s (execLdVxK x s) := by
  unfold execLdVxK
  split
  · exact .waits ⟨x, rfl⟩ ((RegsKept.refl _ s).setV (by simp [writesReg]) _) _ _
  · exact .waits ⟨x, rfl⟩ (.refl _ s) _ _

/-! ### Every instruction -/

/-- Every instruction writes only the elements it is named the writer of. -/
theorem exec_writes (i : Instr) (s : State) : ExecWrites i s (exec i s) := by
  cases i with
  | jp | seByte | sneByte | seReg | sneReg | jpV0 => exact .pc _
  | ldByte | addByte | ldReg | orReg | andReg | xorReg | ldVxDT => exact .setV (by simp [writesReg]) s _
  | addReg x y =>
    exact .of_onlyRegsPc (s.writeFlagAndSum_onlyRegsPc x _ _)
      (.writeFlagAndSum (by simp [writesReg]) (by simp [writesReg]) s _ _)
  | subReg | shr | subnReg | shl => exact .writeFlagThenResult (by simp [writesReg]) (by simp [writesReg]) s _ _ _
  | rnd x kk => exact .draws ⟨x, kk, rfl⟩ ((RegsKept.refl _ s).setV (by simp [writesReg]) _) _ _
  | ret => exact execRet_writes s
  | call nnn => exact execCall_writes nnn s
  | ldI nnn => exact .index (.inl ⟨nnn, rfl⟩) _ _
  | addI x => exact .index (.inr (.inl ⟨x, rfl⟩)) _ _
  | ldF x => exact .index (.inr (.inr ⟨x, rfl⟩)) _ _
  | ldB x => exact .checked (.memory (.inl ⟨x, rfl⟩) _ _) _
  | store x => exact .checked (.memory (.inr ⟨x, rfl⟩) _ _) _
  | load x => exact .checked (.regs (.loadRegs s x) _) _
  | cls => exact .display (.inl rfl) (.refl _ s) _ _
  | drw x y n =>
    have hv := (RegsKept.refl (.drw x y n) s).setV (x := regF) (by simp [writesReg])
    exact .checked (.display (.inr ⟨x, y, n, rfl⟩) (hv _) _ _) _
  | skp x | sknp x => exact .keySkip _ s x _
  | ldVxK x => exact execLdVxK_writes x s
  | ldDTVx x => exact .delay ⟨x, rfl⟩ _ _
  | ldSTVx x => exact .sound ⟨x, rfl⟩ _ _

theorem execWrites_of_exec {i : Instr} {s t : State} (h : exec i s = .next t) : ExecWrites i s (.next t) :=
  h ▸ exec_writes i s

/-- Settles O48: where an instruction writes registers at all, it keeps those outside `writesReg`. -/
theorem registersHaveNoOtherWriter : Obligations.RegistersHaveNoOtherWriter := by
  intro i s t r ht hr
  cases execWrites_of_exec ht with
  | regs hv | display _ hv | waits _ hv | draws _ hv => exact hv r hr
  | raises | pc | index | pops | pushes | memory | delay | sound => rfl

/-- Settles O49: each way an instruction can end writes its own elements and leaves the others. -/
theorem stateElementsHaveNoOtherWriter : Obligations.StateElementsHaveNoOtherWriter := by
  intro i s t ht
  cases execWrites_of_exec ht with
  | raises | pc | regs => simp
  | index writer | pops writer | pushes writer | memory writer | display writer | delay writer | sound writer
  | waits writer | draws writer => simp [writer]

end Sys2Proof.Machine

/-! PROOFS. What no instruction reads: ST and draw_flag, and the keys outside EX9E, EXA1 and FX0A (R29, R31, R32). -/

namespace Sys2Proof.Machine

/-- The state with ST, draw_flag and the keys each put through a function. -/
def State.overwrite (φ : Byte → Byte) (δ : Bool → Bool) (κ : Vector Bool 16 → Vector Bool 16) (s : State) : State :=
  { s with st := φ s.st, drawFlag := δ s.drawFlag, keys := κ s.keys }

section
variable (φ : Byte → Byte) (δ : Bool → Bool) (κ : Vector Bool 16 → Vector Bool 16) (s : State)

/-! ### What an overwriting leaves -/

@[simp] theorem State.overwrite_config : (s.overwrite φ δ κ).config = s.config := rfl

@[simp] theorem State.overwrite_pc : (s.overwrite φ δ κ).pc = s.pc := rfl

@[simp] theorem State.overwrite_keys : (s.overwrite φ δ κ).keys = κ s.keys := rfl

@[simp] theorem State.getV_overwrite (r : Reg) : (s.overwrite φ δ κ).getV r = s.getV r := rfl

@[simp] theorem State.indexBase_overwrite : (s.overwrite φ δ κ).indexBase = s.indexBase := rfl

/-! ### Overwriting before a shared operation is overwriting after it -/

theorem State.writeFlagAndSum_overwrite (x : Reg) (flag result : Byte) :
    (s.overwrite φ δ κ).writeFlagAndSum x flag result = (s.writeFlagAndSum x flag result).overwrite φ δ κ := by
  unfold State.writeFlagAndSum
  rw [State.overwrite_config]
  split <;> rfl

theorem State.writeFlagThenResult_overwrite (x y : Reg) (flag : Byte) (result : Byte → Byte → Byte) :
    (s.overwrite φ δ κ).writeFlagThenResult x y flag result =
      (s.writeFlagThenResult x y flag result).overwrite φ δ κ := by
  unfold State.writeFlagThenResult
  rw [State.overwrite_config]
  split <;> rfl

theorem State.pop_overwrite :
    (s.overwrite φ δ κ).pop = s.pop.map fun p => (p.1.overwrite φ δ κ, p.2) := by
  unfold State.pop
  by_cases h : s.sp.val = 0
  · have h' : (s.overwrite φ δ κ).sp.val = 0 := h
    rw [dif_pos h, dif_pos h']
    rfl
  · have h' : (s.overwrite φ δ κ).sp.val ≠ 0 := h
    rw [dif_neg h, dif_neg h']
    rfl

theorem State.push_overwrite (w : Word) : (s.overwrite φ δ κ).push w = (s.push w).map (State.overwrite φ δ κ) := by
  unfold State.push
  by_cases h : s.sp.val < 16
  · have h' : (s.overwrite φ δ κ).sp.val < 16 := h
    rw [dif_pos h, dif_pos h']
    rfl
  · have h' : ¬ (s.overwrite φ δ κ).sp.val < 16 := h
    rw [dif_neg h, dif_neg h']
    rfl

theorem execRet_overwrite : execRet (s.overwrite φ δ κ) = mapNext (State.overwrite φ δ κ) (execRet s) := by
  unfold execRet
  rw [State.pop_overwrite]
  cases s.pop with
  | none | some => rfl

theorem execCall_overwrite (nnn : Addr12) :
    execCall nnn (s.overwrite φ δ κ) = mapNext (State.overwrite φ δ κ) (execCall nnn s) := by
  unfold execCall
  rw [State.push_overwrite, State.overwrite_pc]
  cases s.push s.pc with
  | none | some => rfl

/-- Whether a checked access raises rests on I alone (R57). -/
theorem State.checked_overwrite (i : Instr) (n : Nat) (effect : State) :
    (s.overwrite φ δ κ).checked i n (effect.overwrite φ δ κ) =
      mapNext (State.overwrite φ δ κ) (s.checked i n effect) := by
  unfold State.checked
  rw [State.indexBase_overwrite]
  split <;> rfl

/-- With the keys as they were, a key skip does not see the overwriting. -/
theorem State.keySkip_overwrite (i : Instr) (x : Reg) (level : Bool) :
    (s.overwrite φ δ id).keySkip i x level = mapNext (State.overwrite φ δ id) (s.keySkip i x level) := by
  unfold State.keySkip
  rw [State.getV_overwrite]
  split <;> rfl

/-- With the keys as they were, FX0A does not see the overwriting. -/
theorem execLdVxK_overwrite (x : Reg) :
    execLdVxK x (s.overwrite φ δ id) = mapNext (State.overwrite φ δ id) (execLdVxK x s) := by
  unfold execLdVxK
  rw [State.overwrite_keys, id]
  split <;> rfl

end

/-! ### Every instruction -/

/-- An instruction does not see an overwriting that spares what it reads or writes: the keys where it is one of the key
instructions, draw_flag where it sets it, ST where it loads it. -/
theorem exec_overwrite {φ : Byte → Byte} {δ : Bool → Bool} {κ : Vector Bool 16 → Vector Bool 16}
    (i : Instr) (s : State)
    (hkeys : ((∃ x, i = .skp x) ∨ (∃ x, i = .sknp x) ∨ ∃ x, i = .ldVxK x) → κ = id)
    (hflag : (i = .cls ∨ ∃ x y n, i = .drw x y n) → δ = id) (hst : (∃ x, i = .ldSTVx x) → φ = id) :
    exec i (s.overwrite φ δ κ) = mapNext (State.overwrite φ δ κ) (exec i s) := by
  cases i with
  | skp x =>
    obtain rfl := hkeys (.inl ⟨x, rfl⟩)
    exact s.keySkip_overwrite φ δ (.skp x) x true
  | sknp x =>
    obtain rfl := hkeys (.inr (.inl ⟨x, rfl⟩))
    exact s.keySkip_overwrite φ δ (.sknp x) x false
  | ldVxK x =>
    obtain rfl := hkeys (.inr (.inr ⟨x, rfl⟩))
    exact execLdVxK_overwrite φ δ s x
  | cls =>
    obtain rfl := hflag (.inl rfl)
    rfl
  | drw x y n =>
    obtain rfl := hflag (.inr ⟨x, y, n, rfl⟩)
    exact s.checked_overwrite φ id κ (.drw x y n) n (s.drawSprite x y n).advance
  | ldSTVx x =>
    obtain rfl := hst ⟨x, rfl⟩
    rfl
  | ldB x => exact s.checked_overwrite φ δ κ (.ldB x) 3 (s.writeBlock s.indexBase (bcdDigits (s.getV x))).advance
  | store x =>
    exact s.checked_overwrite φ δ κ (.store x) (blockLength x) (s.writeBlock s.indexBase (s.regBlock x)).advance
  | load x => exact s.checked_overwrite φ δ κ (.load x) (blockLength x) (s.loadRegs x).advance
  | ret => exact execRet_overwrite φ δ κ s
  | call nnn => exact execCall_overwrite φ δ κ s nnn
  | addReg x y => exact congrArg (fun t => Host.Outcome.next t.advance) (s.writeFlagAndSum_overwrite φ δ κ x _ _)
  | subReg x y | subnReg x y =>
    exact congrArg (fun t => Host.Outcome.next t.advance) (s.writeFlagThenResult_overwrite φ δ κ x y _ _)
  | shr x y | shl x y =>
    exact congrArg (fun t => Host.Outcome.next t.advance) (s.writeFlagThenResult_overwrite φ δ κ x x _ _)
  | jp | seByte | sneByte | seReg | ldByte | addByte | ldReg | orReg | andReg | xorReg | sneReg | ldI | jpV0 | rnd
  | ldVxDT | ldDTVx | addI | ldF => rfl

/-- Settles O50: other keys are an overwriting of the keys alone. -/
theorem keysReachOnlyKeyInstructions : Obligations.KeysReachOnlyKeyInstructions := by
  intro i s ks hskp hsknp hldVxK
  refine exec_overwrite (φ := id) (δ := id) (κ := fun _ => ks) i s ?_ (fun _ => rfl) (fun _ => rfl)
  rintro (⟨x, h⟩ | ⟨x, h⟩ | ⟨x, h⟩)
  · exact absurd h (hskp x)
  · exact absurd h (hsknp x)
  · exact absurd h (hldVxK x)

/-- ST and draw_flag set to fixed values: what two runs still share when these two differ. -/
def State.maskSoundDraw (s : State) : State := { s with st := 0, drawFlag := false }

theorem mapNext_maskSoundDraw_overwrite (φ : Byte → Byte) (δ : Bool → Bool) (o : Result) :
    mapNext State.maskSoundDraw (mapNext (State.overwrite φ δ id) o) = mapNext State.maskSoundDraw o := by
  cases o with
  | next | fault | refused => rfl

/-- DXYN's own effect sets draw_flag, whatever it was, and its bounds check reads neither ST nor draw_flag. -/
theorem execDrw_maskSoundDraw (φ : Byte → Byte) (δ : Bool → Bool) (s : State) (x y : Reg) (n : Nat) :
    mapNext State.maskSoundDraw (execDrw x y n (s.overwrite φ δ id)) =
      mapNext State.maskSoundDraw (execDrw x y n s) := by
  unfold execDrw State.checked
  rw [State.indexBase_overwrite]
  split <;> rfl

/-- Settles O51: CLS, DXYN and FX18 write draw_flag or ST without reading it; no other instruction sees it overwritten. -/
theorem soundTimerAndDrawFlagAreNeverRead : Obligations.SoundTimerAndDrawFlagAreNeverRead := by
  intro i s b d
  change mapNext State.maskSoundDraw (exec i (s.overwrite (fun _ => b) (fun _ => d) id)) =
    mapNext State.maskSoundDraw (exec i s)
  cases i with
  | cls | ldSTVx => rfl
  | drw x y n => exact execDrw_maskSoundDraw _ _ s x y n
  | _ =>
    rw [exec_overwrite _ s (fun _ => rfl) (by simp) (by simp)]
    exact mapNext_maskSoundDraw_overwrite _ _ _

end Sys2Proof.Machine

/-! PROOFS. Memory as the cycle meets it: the invariant kept by a step, and the opcode the next cycle fetches (R54-R62,
R87). -/

namespace Sys2Proof.Machine

/-- Settles O53: a fault already recorded stays, the wait step stores and raises nothing, and every instruction completes
with memory in canonical form or raises a truthful fault. -/
theorem stepKeepsInvariant : Obligations.StepKeepsInvariant := fun _ _ h ht => step_inv h ht

/-! ### The word at pc -/

/-- A block of two bytes or more stored at pc is what the fetch reads, high byte first (R54, R59). -/
theorem State.fetchWord_writeBlock {s : State} {a : Nat} (ha : s.pc.toNat = a) {bs : List Byte}
    (hlen : 2 ≤ bs.length) : (s.writeBlock a bs).fetchWord = wordOfBytes bs[0] bs[1] := by
  have hhi : (s.writeBlock a bs).readByte a = bs[0] := by
    rw [State.readByte_writeBlock, dif_pos ⟨le_refl a, by omega⟩]
    simp
  have hlo : (s.writeBlock a bs).readByte (a + 1) = bs[1] := by
    rw [State.readByte_writeBlock, dif_pos ⟨by omega, by omega⟩]
    simp
  have hpc : (s.writeBlock a bs).pc.toNat = a := ha
  rw [State.fetchWord, hpc, hhi, hlo]

theorem State.fetchWord_placeOpcode (s : State) (w : Word) : (s.placeOpcode w).fetchWord = w :=
  (State.fetchWord_writeBlock rfl (le_refl 2)).trans (wordOfBytes_bytes w)

theorem State.readyToFetch_pc_of_le {s : State} (h : s.pc.toNat ≤ 0xFFE) : s.readyToFetch.pc = s.pc :=
  if_neg (by omega)

theorem State.readyToFetch_pc_le (s : State) : s.readyToFetch.pc.toNat ≤ 0xFFE := by
  unfold State.readyToFetch
  dsimp only
  split
  · decide
  · omega

/-- Settles O10: placing a word keeps pc, which `readyToFetch` has put where two bytes can be read. -/
theorem placedWordIsFetched : Obligations.PlacedWordIsFetched := by
  intro s w hw
  have hmod : w % 2 ^ 16 = w := Nat.mod_eq_of_lt hw
  rw [State.withFetchWord, hmod]
  exact ⟨⟨rfl, rfl⟩, s.readyToFetch_pc_le, s.readyToFetch.fetchWord_placeOpcode _, State.readyToFetch_pc_of_le⟩

/-! ### Storing over the next instruction -/

/-- The bounds check passes exactly when every address of the access is in range (R57). -/
theorem outOfRange_indexBase_eq_none_iff (s : State) (n : Nat) : outOfRange s.indexBase n = none ↔ InRange s n :=
  outOfRange_eq_none_iff s.indexBase n

/-- FX55 in range stores V0..VX at I and moves pc on (R155). -/
theorem exec_store_of_inRange {s : State} {x : Reg} (h : InRange s (blockLength x)) :
    exec (.store x) s = .next (s.writeBlock s.indexBase (s.regBlock x)).advance :=
  State.checked_of_none ((outOfRange_indexBase_eq_none_iff s _).2 h) (.store x) _

/-- Settles O35: the advance after the store leads to I, where the store has put V0 and V1. -/
theorem storedOpcodeIsFetchedNext : Obligations.StoredOpcodeIsFetchedNext := by
  intro x s hx hi hrange
  refine ⟨_, exec_store_of_inRange hrange, ?_⟩
  have hmax : s.i.toNat + 1 ≤ 0xFFF := hrange 1 (by omega)
  have hpc : s.advance.pc.toNat = s.indexBase := by
    simp only [State.advance, State.indexBase]
    bv_omega
  have hlen : 2 ≤ (s.regBlock x).length := by
    rw [State.length_regBlock, blockLength]
    omega
  calc (s.writeBlock s.indexBase (s.regBlock x)).advance.fetchWord
    _ = (s.advance.writeBlock s.indexBase (s.regBlock x)).fetchWord := rfl
    _ = wordOfBytes (s.regBlock x)[0] (s.regBlock x)[1] := State.fetchWord_writeBlock hpc hlen
    _ = s.getV 0 ++ s.getV 1 := by rw [State.getElem_regBlock, State.getElem_regBlock]; rfl

/-! ### The fetch and what it decides -/

theorem fetchExecute_of_pc_gt {s : State} (h : 0xFFE < s.pc.toNat) :
    fetchExecute s = .next (s.raise (.fetchOutOfRange s.pc)) := if_pos h

theorem fetchExecute_of_illegal {s : State} (hpc : s.pc.toNat ≤ 0xFFE) (hdec : decodeWord s.fetchWord = none) :
    fetchExecute s = .next (s.raise (.unknownOpcode s.fetchWord s.pc)) := by
  rw [fetchExecute, if_neg (by omega), hdec]

theorem fetchExecute_of_legal {s : State} {i : Instr} (hpc : s.pc.toNat ≤ 0xFFE)
    (hdec : decodeWord s.fetchWord = some i) : fetchExecute s = exec i s := by
  rw [fetchExecute, if_neg (by omega), hdec]

/-- A running machine fetches (R85, R86). -/
theorem step_of_running {s : State} (h : Running s) : step s = finishCycle (fetchExecute s) := by
  obtain ⟨hfault, hwait⟩ := h
  rw [step, cycle, hfault, cycleBody, hwait]

/-- A cycle that raises makes no timer step (R89). -/
theorem finishCycle_raise (s : State) (r : FaultRecord) : finishCycle (.next (s.raise r)) = .next (s.raise r) := rfl

/-- Settles O8: the step of a running machine is one of the three cases of `fetchExecute`, and ends without a timer step
where it raises. -/
theorem fetchIsTwoBytesBigEndian : Obligations.FetchIsTwoBytesBigEndian := by
  intro s hrun
  rw [step_of_running hrun]
  refine ⟨fun hpc => ?_, fun hpc => ⟨fun hdec => ?_, fun i hdec => ?_⟩⟩
  · rw [fetchExecute_of_pc_gt hpc]
    exact finishCycle_raise s _
  · rw [fetchExecute_of_illegal hpc hdec]
    exact finishCycle_raise s _
  · rw [fetchExecute_of_legal hpc hdec]

end Sys2Proof.Machine

/-! PROOFS. The encoder and the decoder as inverses, and the opcode table as masks (R70-R76, R83). -/

namespace Sys2Proof

/-- Settles O1: each word is one of the table's patterns with its operands filled in (R74). -/
theorem specWordsDecode : Obligations.SpecWordsDecode := by
  unfold Obligations.SpecWordsDecode
  decide

/-- Settles O2: the two bytes are the encoded word, and the decoder reads every field of it back. -/
theorem decodeInvertsEncode : Obligations.DecodeInvertsEncode := by
  intro i rest hi
  rw [encode, decode_bytesOfWord, decodeWord_encodeWord hi]

/-! ### The encoding of a decoded word -/

theorem encodeNNN_of_opField {w : Word} {op : Nibble} (hop : opField w = op) : encodeNNN op (nnnField w) = w :=
  hop ▸ encodeNNN_fields w

theorem encodeXKK_of_opField {w : Word} {op : Nibble} (hop : opField w = op) :
    encodeXKK op (xField w) (kkField w) = w :=
  hop ▸ encodeXKK_fields w

theorem encodeXYN_of_opField_nField {w : Word} {op n : Nibble} (hop : opField w = op) (hn : nField w = n) :
    encodeXYN op (xField w) (yField w) n = w :=
  hop ▸ hn ▸ encodeXYN_fields w

theorem encodeWord_of_decodeGroup8 {x y : Reg} {n : Nibble} {i : Instr} (h : decodeGroup8 x y n = some i) :
    encodeWord i = encodeXYN 0x8#4 x y n := by
  unfold decodeGroup8 at h
  split at h <;> cases h <;> rfl

theorem encodeWord_of_decodeGroupE {x : Reg} {kk : Byte} {i : Instr} (h : decodeGroupE x kk = some i) :
    encodeWord i = encodeXKK 0xE#4 x kk := by
  unfold decodeGroupE at h
  split at h <;> cases h <;> rfl

theorem encodeWord_of_decodeGroupF {x : Reg} {kk : Byte} {i : Instr} (h : decodeGroupF x kk = some i) :
    encodeWord i = encodeXKK 0xF#4 x kk := by
  unfold decodeGroupF at h
  split at h <;> cases h <;> rfl

/-- The decoder keeps every field of the word that its group does not fix, so encoding puts the word together again. -/
theorem encodeWord_of_decodeWord {w : Word} {i : Instr} (h : decodeWord w = some i) : encodeWord i = w := by
  unfold decodeWord at h
  split at h
  -- 00E0 and 00EE, two whole words
  case h_1 =>
    split at h
    · cases h; exact Eq.symm ‹_›
    · split at h <;> cases h
      exact Eq.symm ‹_›
  -- NNN
  case h_2 hop | h_3 hop | h_11 hop | h_12 hop => cases h; exact encodeNNN_of_opField hop
  -- XKK
  case h_4 hop | h_5 hop | h_7 hop | h_8 hop | h_13 hop => cases h; exact encodeXKK_of_opField hop
  -- XY with N fixed to 0
  case h_6 hop | h_10 hop =>
    split at h <;> cases h
    exact encodeXYN_of_opField_nField hop ‹_›
  -- DXYN
  case h_14 hop =>
    cases h
    have hn : nField w = BitVec.ofNat 4 (nField w).toNat := by simp
    exact encodeXYN_of_opField_nField hop hn
  -- the sub-dispatches on N and on KK
  case h_9 hop => exact (encodeWord_of_decodeGroup8 h).trans (encodeXYN_of_opField_nField hop rfl)
  case h_15 hop => exact (encodeWord_of_decodeGroupE h).trans (encodeXKK_of_opField hop)
  case h_16 =>
    have hop : opField w = 0xF#4 := by
      simp only [imp_false] at *
      bv_omega
    exact (encodeWord_of_decodeGroupF h).trans (encodeXKK_of_opField hop)

/-- Settles O3: the fields of a legal word are all in its instruction, and N is below 16. -/
theorem encodeInvertsDecode : Obligations.EncodeInvertsDecode :=
  fun _ _ h => ⟨encodeWord_of_decodeWord h, decodeWord_wellFormed h⟩

/-! ### The fields that decide whether a word is legal -/

/-- The legal values of N in group 8 (R80). -/
def legalN8 : List Nibble := [0x0#4, 0x1#4, 0x2#4, 0x3#4, 0x4#4, 0x5#4, 0x6#4, 0x7#4, 0xE#4]

/-- The legal values of KK in group E (R81). -/
def legalKKE : List Byte := [0x9E#8, 0xA1#8]

/-- The legal values of KK in group F (R81). -/
def legalKKF : List Byte := [0x07#8, 0x0A#8, 0x15#8, 0x18#8, 0x1E#8, 0x29#8, 0x33#8, 0x55#8, 0x65#8]

theorem isSome_decodeGroup8 (x y : Reg) (n : Nibble) :
    (decodeGroup8 x y n).isSome = true ↔ n ∈ legalN8 := by
  unfold decodeGroup8 legalN8
  split <;> simp_all

theorem isSome_decodeGroupE (x : Reg) (kk : Byte) : (decodeGroupE x kk).isSome = true ↔ kk ∈ legalKKE := by
  unfold decodeGroupE legalKKE
  split <;> simp_all

theorem isSome_decodeGroupF (x : Reg) (kk : Byte) :
    (decodeGroupF x kk).isSome = true ↔ kk ∈ legalKKF := by
  unfold decodeGroupF legalKKF
  split <;> simp_all

/-- In group 0 the whole word decides (R76). -/
theorem isSome_decodeWord_group0 {w : Word} (h : opField w = 0x0#4) :
    (decodeWord w).isSome = true ↔ w ∈ [0x00E0#16, 0x00EE#16] := by
  simp only [decodeWord, h, List.mem_cons, List.not_mem_nil, or_false]
  split
  · simp [*]
  · split <;> simp [*]

/-- In the groups 5, 8 and 9 the N field decides (R77, R80). -/
theorem isSome_decodeWord_group5 {w : Word} (h : opField w = 0x5#4) :
    (decodeWord w).isSome = true ↔ nField w ∈ [0x0#4] := by
  simp [decodeWord, h, apply_ite Option.isSome]

theorem isSome_decodeWord_group8 {w : Word} (h : opField w = 0x8#4) :
    (decodeWord w).isSome = true ↔ nField w ∈ legalN8 := by
  simp only [decodeWord, h, isSome_decodeGroup8]

theorem isSome_decodeWord_group9 {w : Word} (h : opField w = 0x9#4) :
    (decodeWord w).isSome = true ↔ nField w ∈ [0x0#4] := by
  simp [decodeWord, h, apply_ite Option.isSome]

/-- In the groups E and F the KK field decides (R81). -/
theorem isSome_decodeWord_groupE {w : Word} (h : opField w = 0xE#4) :
    (decodeWord w).isSome = true ↔ kkField w ∈ legalKKE := by
  simp only [decodeWord, h, isSome_decodeGroupE]

theorem isSome_decodeWord_groupF {w : Word} (h : opField w = 0xF#4) :
    (decodeWord w).isSome = true ↔ kkField w ∈ legalKKF := by
  rw [← isSome_decodeGroupF (xField w), decodeWord, h]
  rfl

/-- The groups in which every word is legal (R83). -/
def fullGroups : List Nibble := [0x1#4, 0x2#4, 0x3#4, 0x4#4, 0x6#4, 0x7#4, 0xA#4, 0xB#4, 0xC#4, 0xD#4]

theorem isSome_decodeWord_fullGroups {w : Word} (h : opField w ∈ fullGroups) : (decodeWord w).isSome = true := by
  simp only [fullGroups, List.mem_cons, List.not_mem_nil, or_false] at h
  unfold decodeWord
  rcases h with h | h | h | h | h | h | h | h | h | h <;> rw [h] <;> rfl

theorem isSome_decodeWord_congr_nField {w w' : Word} (h : opField w' ∈ [0x5#4, 0x8#4, 0x9#4])
    (hop : opField w = opField w') (hn : nField w = nField w') :
    (decodeWord w).isSome = true ↔ (decodeWord w').isSome = true := by
  simp only [List.mem_cons, List.not_mem_nil, or_false] at h
  rcases h with h | h | h <;> rw [h] at hop
  · rw [isSome_decodeWord_group5 hop, isSome_decodeWord_group5 h, hn]
  · rw [isSome_decodeWord_group8 hop, isSome_decodeWord_group8 h, hn]
  · rw [isSome_decodeWord_group9 hop, isSome_decodeWord_group9 h, hn]

theorem isSome_decodeWord_congr_kkField {w w' : Word} (h : opField w' ∈ [0xE#4, 0xF#4])
    (hop : opField w = opField w') (hkk : kkField w = kkField w') :
    (decodeWord w).isSome = true ↔ (decodeWord w').isSome = true := by
  simp only [List.mem_cons, List.not_mem_nil, or_false] at h
  rcases h with h | h <;> rw [h] at hop
  · rw [isSome_decodeWord_groupE hop, isSome_decodeWord_groupE h, hkk]
  · rw [isSome_decodeWord_groupF hop, isSome_decodeWord_groupF h, hkk]

/-! ### The rows of the opcode table -/

/-- The mask of the row fixes the fields that decide whether a word is legal, and its pattern has legal values in
them. -/
def OpcodeRow.FixesLegality (r : OpcodeRow) : Prop :=
  r.mask = 0xFFFF#16 ∧ (decodeWord r.pattern).isSome = true ∨
  opField r.mask = 0xF#4 ∧
    (opField r.pattern ∈ fullGroups ∨
      (decodeWord r.pattern).isSome = true ∧
        (opField r.pattern ∈ [0x5#4, 0x8#4, 0x9#4] ∧ nField r.mask = 0xF#4 ∨
          opField r.pattern ∈ [0xE#4, 0xF#4] ∧ kkField r.mask = 0xFF#8))

theorem opcodeTable_fixesLegality : ∀ r ∈ opcodeTable, r.FixesLegality := by
  unfold OpcodeRow.FixesLegality
  decide

/-- A word that matches a row is legal. -/
theorem isSome_decodeWord_of_match {w : Word} {r : OpcodeRow} (hr : r ∈ opcodeTable) (h : w &&& r.mask = r.pattern) :
    (decodeWord w).isSome = true := by
  obtain ⟨hmask, hlegal⟩ | ⟨hmask, hfull | ⟨hlegal, ⟨hgroup, hn⟩ | ⟨hgroup, hkk⟩⟩⟩ := opcodeTable_fixesLegality r hr
  · rw [hmask, show w &&& 0xFFFF#16 = w from BitVec.and_allOnes (w := 16)] at h
    rwa [h]
  all_goals have hop := opField_of_mask h hmask
  · exact isSome_decodeWord_fullGroups (hop ▸ hfull)
  · rwa [isSome_decodeWord_congr_nField hgroup hop (nField_of_mask h hn)]
  · rwa [isSome_decodeWord_congr_kkField hgroup hop (kkField_of_mask h hkk)]

/-- The masks and patterns of two different rows contradict each other. -/
theorem opcodeTable_disjoint : ∀ r ∈ opcodeTable, ∀ r' ∈ opcodeTable,
    r.pattern &&& r'.mask = r'.pattern &&& r.mask → r = r' := by
  decide

/-- No word matches two rows. -/
theorem row_eq_of_match {w : Word} {r r' : OpcodeRow} (hr : r ∈ opcodeTable) (hr' : r' ∈ opcodeTable)
    (h : w &&& r.mask = r.pattern) (h' : w &&& r'.mask = r'.pattern) : r = r' := by
  refine opcodeTable_disjoint r hr r' hr' ?_
  rw [← h, ← h', BitVec.and_assoc, BitVec.and_assoc, BitVec.and_comm r.mask]

theorem row_eq_of_mnemonic : ∀ r ∈ opcodeTable, ∀ r' ∈ opcodeTable, r.mnemonic = r'.mnemonic → r = r' := by
  decide

/-- The opcode of every instruction matches the row of its mnemonic. -/
theorem encodeWord_matches_row (i : Instr) :
    ∃ r ∈ opcodeTable, r.mnemonic = i.mnemonic ∧ encodeWord i &&& r.mask = r.pattern := by
  cases i with
  | cls => exact Laws.EncodingMatchesRow.cls
  | ret => exact Laws.EncodingMatchesRow.ret
  | jp nnn => exact Laws.EncodingMatchesRow.jp nnn
  | call nnn => exact Laws.EncodingMatchesRow.call nnn
  | seByte x kk => exact Laws.EncodingMatchesRow.seByte x kk
  | sneByte x kk => exact Laws.EncodingMatchesRow.sneByte x kk
  | seReg x y => exact Laws.EncodingMatchesRow.seReg x y
  | ldByte x kk => exact Laws.EncodingMatchesRow.ldByte x kk
  | addByte x kk => exact Laws.EncodingMatchesRow.addByte x kk
  | ldReg x y => exact Laws.EncodingMatchesRow.ldReg x y
  | orReg x y => exact Laws.EncodingMatchesRow.orReg x y
  | andReg x y => exact Laws.EncodingMatchesRow.andReg x y
  | xorReg x y => exact Laws.EncodingMatchesRow.xorReg x y
  | addReg x y => exact Laws.EncodingMatchesRow.addReg x y
  | subReg x y => exact Laws.EncodingMatchesRow.subReg x y
  | shr x y => exact Laws.EncodingMatchesRow.shr x y
  | subnReg x y => exact Laws.EncodingMatchesRow.subnReg x y
  | shl x y => exact Laws.EncodingMatchesRow.shl x y
  | sneReg x y => exact Laws.EncodingMatchesRow.sneReg x y
  | ldI nnn => exact Laws.EncodingMatchesRow.ldI nnn
  | jpV0 nnn => exact Laws.EncodingMatchesRow.jpV0 nnn
  | rnd x kk => exact Laws.EncodingMatchesRow.rnd x kk
  | drw x y n => exact Laws.EncodingMatchesRow.drw x y n
  | skp x => exact Laws.EncodingMatchesRow.skp x
  | sknp x => exact Laws.EncodingMatchesRow.sknp x
  | ldVxDT x => exact Laws.EncodingMatchesRow.ldVxDT x
  | ldVxK x => exact Laws.EncodingMatchesRow.ldVxK x
  | ldDTVx x => exact Laws.EncodingMatchesRow.ldDTVx x
  | ldSTVx x => exact Laws.EncodingMatchesRow.ldSTVx x
  | addI x => exact Laws.EncodingMatchesRow.addI x
  | ldF x => exact Laws.EncodingMatchesRow.ldF x
  | ldB x => exact Laws.EncodingMatchesRow.ldB x
  | store x => exact Laws.EncodingMatchesRow.store x
  | load x => exact Laws.EncodingMatchesRow.load x

/-- A legal word matches the row of the instruction it decodes to. -/
theorem match_of_decodeWord {w : Word} {i : Instr} (h : decodeWord w = some i) :
    ∃ r ∈ opcodeTable, r.mnemonic = i.mnemonic ∧ w &&& r.mask = r.pattern :=
  encodeWord_of_decodeWord h ▸ encodeWord_matches_row i

/-- Settles O4: a word that matches a row is legal, so it matches the row of its own instruction too, and that row is the
same one. -/
theorem wordIsItsTableRow : Obligations.WordIsItsTableRow := by
  refine ⟨rfl, fun w r hr => ⟨fun h => ?_, fun h => ?_⟩, fun w r hr r' hr' h h' => row_eq_of_match hr hr' h h'⟩
  · obtain ⟨i, hi⟩ := Option.isSome_iff_exists.1 (isSome_decodeWord_of_match hr h)
    obtain ⟨r', hr', hname, h'⟩ := match_of_decodeWord hi
    rw [hi, row_eq_of_match hr hr' h h', hname]
    rfl
  · obtain ⟨i, hi, hname⟩ := Option.map_eq_some_iff.1 h
    obtain ⟨r', hr', hname', h'⟩ := match_of_decodeWord hi
    rwa [row_eq_of_mnemonic r hr r' hr' (hname.symm.trans hname'.symm)]

/-! ### The legal words counted -/

/-- A test that repeats with period `m` passes equally often in each of `q` periods. -/
theorem countP_range_mul {p : Nat → Bool} {m : Nat} (h : ∀ k, p (k + m) = p k) (q : Nat) :
    (List.range (q * m)).countP p = q * (List.range m).countP p := by
  have hshift : ∀ q k, p (q * m + k) = p k := by
    intro q k
    induction q with
    | zero => rw [Nat.zero_mul, Nat.zero_add]
    | succ q ih => rw [Nat.succ_mul, Nat.add_right_comm, h, ih]
  induction q with
  | zero => simp
  | succ q ih =>
    have hlast : p ∘ (q * m + ·) = p := funext (hshift q)
    rw [Nat.succ_mul, List.range_add, List.countP_append, List.countP_map, hlast, ih, Nat.succ_mul]

/-- A test for the members of `l`, as bit vectors, passes once for each of them. -/
theorem countP_range_ofNat_mem {m : Nat} {l : List (BitVec m)} (hl : l.Nodup) :
    (List.range (2 ^ m)).countP (fun k => decide (BitVec.ofNat m k ∈ l)) = l.length := by
  have hmem : ∀ k, k < 2 ^ m ∧ BitVec.ofNat m k ∈ l ↔ k ∈ l.map BitVec.toNat := by
    intro k
    rw [List.mem_map]
    constructor
    · rintro ⟨hk, h⟩
      exact ⟨_, h, by rw [BitVec.toNat_ofNat, Nat.mod_eq_of_lt hk]⟩
    · rintro ⟨b, hb, rfl⟩
      exact ⟨b.isLt, by simpa using hb⟩
  have hperm : ((List.range (2 ^ m)).filter fun k => decide (BitVec.ofNat m k ∈ l)).Perm (l.map BitVec.toNat) :=
    (List.perm_ext_iff_of_nodup (List.nodup_range.filter _) (hl.map fun _ _ => BitVec.eq_of_toNat_eq)).2
      fun k => by rw [List.mem_filter, List.mem_range, decide_eq_true_iff, hmem]
  rw [List.countP_eq_length_filter, hperm.length_eq, List.length_map]

/-- Word `k` of the group is legal. -/
def legalWord (op : Nibble) (k : Nat) : Bool := (decodeWord (encodeNNN op (BitVec.ofNat 12 k))).isSome

theorem legalInGroup_eq_countP (op : Nibble) :
    Machine.legalInGroup op = (List.range 4096).countP (legalWord op) := rfl

/-- Where the low `m` bits decide, each legal value of them gives as many legal words as there are values of the other
bits of NNN. -/
theorem legalInGroup_of_low_bits {op : Nibble} {m q : Nat} {l : List (BitVec m)} (hl : l.Nodup)
    (hq : 4096 = q * 2 ^ m) (h : ∀ k, legalWord op k = true ↔ BitVec.ofNat m k ∈ l) :
    Machine.legalInGroup op = q * l.length := by
  have hlegal : legalWord op = fun k => decide (BitVec.ofNat m k ∈ l) := by
    funext k
    rw [Bool.eq_iff_iff, h, decide_eq_true_iff]
  have hperiod : ∀ k, decide (BitVec.ofNat m (k + 2 ^ m) ∈ l) = decide (BitVec.ofNat m k ∈ l) := by
    intro k
    rw [show BitVec.ofNat m (k + 2 ^ m) = BitVec.ofNat m k from BitVec.eq_of_toNat_eq (by simp)]
  rw [legalInGroup_eq_countP, hlegal, hq, countP_range_mul hperiod, countP_range_ofNat_mem hl]

theorem nField_encodeNNN_ofNat (op : Nibble) (k : Nat) :
    nField (encodeNNN op (BitVec.ofNat 12 k)) = BitVec.ofNat 4 k := by
  refine BitVec.eq_of_getLsbD_eq fun i hi => ?_
  have hi12 : i < 12 := by omega
  rw [nField, BitVec.getLsbD_extractLsb', getLsbD_encodeNNN, Nat.zero_add, if_pos hi12, BitVec.getLsbD_ofNat,
    BitVec.getLsbD_ofNat]
  simp [hi, hi12]

theorem kkField_encodeNNN_ofNat (op : Nibble) (k : Nat) :
    kkField (encodeNNN op (BitVec.ofNat 12 k)) = BitVec.ofNat 8 k := by
  refine BitVec.eq_of_getLsbD_eq fun i hi => ?_
  have hi12 : i < 12 := by omega
  rw [kkField, BitVec.getLsbD_extractLsb', getLsbD_encodeNNN, Nat.zero_add, if_pos hi12, BitVec.getLsbD_ofNat,
    BitVec.getLsbD_ofNat]
  simp [hi, hi12]

theorem encodeNNN_eq_iff (op : Nibble) (a b : Addr12) : encodeNNN op a = encodeNNN op b ↔ a = b :=
  ⟨fun h => by simpa only [nnnField_encodeNNN] using congrArg nnnField h, fun h => h ▸ rfl⟩

theorem legalInGroup_fullGroups {op : Nibble} (h : op ∈ fullGroups) : Machine.legalInGroup op = 4096 := by
  have hall : ∀ k ∈ List.range 4096, legalWord op k = true := fun k _ =>
    isSome_decodeWord_fullGroups (by rwa [opField_encodeNNN])
  rw [legalInGroup_eq_countP, List.countP_eq_length.2 hall, List.length_range]

theorem legalInGroup_group0 : Machine.legalInGroup 0x0#4 = 2 := by
  refine legalInGroup_of_low_bits (l := [0x0E0#12, 0x0EE#12]) (q := 1) (by decide) (by decide) fun k => ?_
  rw [legalWord, isSome_decodeWord_group0 (opField_encodeNNN _ _),
    show [0x00E0#16, 0x00EE#16] = [0x0E0#12, 0x0EE#12].map (encodeNNN 0x0#4) from rfl,
    List.mem_map_of_injective fun a b h => (encodeNNN_eq_iff 0x0#4 a b).1 h]

theorem legalInGroup_group5 : Machine.legalInGroup 0x5#4 = 256 :=
  legalInGroup_of_low_bits (l := [0x0#4]) (q := 256) (by decide) (by decide) fun k => by
    rw [legalWord, isSome_decodeWord_group5 (opField_encodeNNN _ _), nField_encodeNNN_ofNat]

theorem legalInGroup_group8 : Machine.legalInGroup 0x8#4 = 9 * 256 :=
  legalInGroup_of_low_bits (l := legalN8) (q := 256) (by decide) (by decide) fun k => by
    rw [legalWord, isSome_decodeWord_group8 (opField_encodeNNN _ _), nField_encodeNNN_ofNat]

theorem legalInGroup_group9 : Machine.legalInGroup 0x9#4 = 256 :=
  legalInGroup_of_low_bits (l := [0x0#4]) (q := 256) (by decide) (by decide) fun k => by
    rw [legalWord, isSome_decodeWord_group9 (opField_encodeNNN _ _), nField_encodeNNN_ofNat]

theorem legalInGroup_groupE : Machine.legalInGroup 0xE#4 = 2 * 16 :=
  legalInGroup_of_low_bits (l := legalKKE) (q := 16) (by decide) (by decide) fun k => by
    rw [legalWord, isSome_decodeWord_groupE (opField_encodeNNN _ _), kkField_encodeNNN_ofNat]

theorem legalInGroup_groupF : Machine.legalInGroup 0xF#4 = 9 * 16 :=
  legalInGroup_of_low_bits (l := legalKKF) (q := 16) (by decide) (by decide) fun k => by
    rw [legalWord, isSome_decodeWord_groupF (opField_encodeNNN _ _), kkField_encodeNNN_ofNat]

/-- The number of legal words of each group, from group 0 on (R83). -/
theorem map_legalInGroup :
    (List.range 16).map (fun op => Machine.legalInGroup (BitVec.ofNat 4 op)) =
      [2, 4096, 4096, 4096, 4096, 256, 4096, 4096, 9 * 256, 256, 4096, 4096, 4096, 4096, 2 * 16, 9 * 16] := by
  have hfull : ∀ op ∈ fullGroups, Machine.legalInGroup op = 4096 := fun op h => legalInGroup_fullGroups h
  simp only [fullGroups, List.forall_mem_cons] at hfull
  simp [List.range_succ, hfull, legalInGroup_group0, legalInGroup_group5, legalInGroup_group8, legalInGroup_group9,
    legalInGroup_groupE, legalInGroup_groupF]

/-- Settles O5: each count is the number of legal values of the field that decides, times the values of the others. -/
theorem legalWordsByGroup : Obligations.LegalWordsByGroup := by
  have hillegal : (List.range 16).map (fun op => 4096 - Machine.legalInGroup (BitVec.ofNat 4 op)) =
      ((List.range 16).map fun op => Machine.legalInGroup (BitVec.ofNat 4 op)).map (4096 - ·) :=
    (List.map_map ..).symm
  refine ⟨legalInGroup_group0, fun op h => legalInGroup_fullGroups h, legalInGroup_group5, legalInGroup_group9,
    legalInGroup_group8, legalInGroup_groupE, legalInGroup_groupF, ?_, ?_⟩
  · rw [map_legalInGroup]
    rfl
  · rw [hillegal, map_legalInGroup]
    rfl

end Sys2Proof

/-! PROOFS. The assembly lines of R92 (R93, decision D23). -/

namespace Sys2Proof.Machine

theorem shiftOperands_zero (x : Reg) : shiftOperands x 0 = [.reg x] := if_pos rfl

theorem shiftOperands_of_ne {y : Reg} (hy : y ≠ 0) (x : Reg) : shiftOperands x y = [.reg x, .reg y] := if_neg hy

/-- The way R92 writes an instruction assembles back to it: a shift that leaves Y out stands for Y = V0. -/
theorem assemble_asmOf {i : Instr} (hi : i.wellFormed = true) : assemble (asmOf i) = some i := by
  cases i with
  | drw x y n =>
    have hn : n < 16 := by simpa [Instr.wellFormed] using hi
    exact if_pos hn
  | shr x y | shl x y =>
    rw [asmOf]
    by_cases hy : y = 0
    · rw [hy, shiftOperands_zero]
      rfl
    · rw [shiftOperands_of_ne hy]
      rfl
  | cls | ret | jp | call | seByte | sneByte | seReg | ldByte | addByte | ldReg | orReg | andReg | xorReg | addReg
  | subReg | subnReg | sneReg | ldI | jpV0 | rnd | skp | sknp | ldVxDT | ldVxK | ldDTVx | ldSTVx | addI | ldF | ldB
  | store | load => rfl

/-- A line that assembles is the way its instruction is written, or a shift with Y = V0 written out. -/
theorem asmOf_of_assemble {l : AsmLine} {i : Instr} (h : assemble l = some i) :
    i.wellFormed = true ∧ (asmOf i = l ∨ ∃ x : Reg, l = ⟨.SHR, [.reg x, .reg 0]⟩ ∨ l = ⟨.SHL, [.reg x, .reg 0]⟩) := by
  obtain ⟨name, operands⟩ := l
  dsimp only [assemble] at h
  split at h
  -- JP with a register, which must be V0
  case h_4 =>
    split at h <;> cases h
    rename_i hr
    exact ⟨rfl, .inl (by rw [hr]; rfl)⟩
  -- DRW, with fewer than 16 rows
  case h_34 =>
    split at h <;> cases h
    rename_i hn
    exact ⟨decide_eq_true hn, .inl rfl⟩
  -- a shift with both operands
  case h_30 x y =>
    cases h
    by_cases hy : y = 0
    · exact ⟨rfl, .inr ⟨x, .inl (by rw [hy])⟩⟩
    · exact ⟨rfl, .inl (by rw [asmOf, shiftOperands_of_ne hy])⟩
  case h_32 x y =>
    cases h
    by_cases hy : y = 0
    · exact ⟨rfl, .inr ⟨x, .inr (by rw [hy])⟩⟩
    · exact ⟨rfl, .inl (by rw [asmOf, shiftOperands_of_ne hy])⟩
  -- every other line is written in one way, or stands for nothing
  all_goals cases h <;> exact ⟨rfl, .inl rfl⟩

/-- Settles O7: only a shift can be written in two ways, with Y = V0 left out or written out. -/
theorem assemblyNamesOneInstruction : Obligations.AssemblyNamesOneInstruction :=
  ⟨fun _ hi => assemble_asmOf hi, fun _ _ h => asmOf_of_assemble h⟩

end Sys2Proof.Machine

/-! PROOFS. The cycle: what its body and its timer step do, and what it reports (R85-R90). -/

namespace Sys2Proof.Machine

/-! ### The timer step -/

theorem State.stepsTimers_iff (t : State) :
    t.stepsTimers = true ↔ t.fault = none ∧ t.config.timersOnCycle = true := by
  simp [State.stepsTimers]

theorem State.endCycle_eq (t : State) :
    t.endCycle = if t.fault = none ∧ t.config.timersOnCycle = true then t.tick else t := by
  simp only [State.endCycle, State.stepsTimers_iff]

@[simp] theorem State.endCycle_fault (t : State) : t.endCycle.fault = t.fault := by
  rw [State.endCycle_eq]
  split <;> rfl

theorem State.endCycle_of_fault {t : State} (h : t.fault ≠ none) : t.endCycle = t := by
  rw [State.endCycle_eq, if_neg fun hc => h hc.1]

theorem State.endCycle_of_uncoupled {t : State} (h : t.config.timersOnCycle = false) : t.endCycle = t := by
  rw [State.endCycle_eq, if_neg fun hc => by simp [h] at hc]

/-- A timer stops at 0 (R236). -/
theorem timerTick_eq_sub (b : Byte) : timerTick b = b - (if b = 0 then 0 else 1) := by
  by_cases h : b = 0
  · rw [h]
    rfl
  · rw [if_neg h]
    exact if_neg h

/-! ### The body of a cycle -/

/-- How the body of a cycle ends: it raises a fault, takes the wait step, or completes the instruction that the word at pc
decodes to (R86, R87). -/
inductive BodyOutcome (s : State) : State → Prop where
  | raises (r : FaultRecord) : BodyOutcome s (s.raise r)
  | waits {x : Reg} (hwait : s.wait = some x) : BodyOutcome s (waitStep x s)
  | completes {i : Instr} {t : State} (decoded : decodeWord s.fetchWord = some i) (run : exec i s = .next t)
      (fault : t.fault = s.fault) : BodyOutcome s t

/-- Every instruction answers a next state. -/
theorem exec_bodyOutcome {s : State} {i : Instr} (h : decodeWord s.fetchWord = some i) :
    ∃ t, exec i s = .next t ∧ BodyOutcome s t := by
  generalize ho : exec i s = o
  have hout := exec_outcome (decodeWord_wellFormed h) s
  rw [ho] at hout
  cases hout with
  | completes fault config mem => exact ⟨_, rfl, .completes h ho fault⟩
  | raises opcode cause => exact ⟨_, rfl, .raises _⟩

theorem fetchExecute_bodyOutcome (s : State) : ∃ t, fetchExecute s = .next t ∧ BodyOutcome s t := by
  by_cases hpc : 0xFFE < s.pc.toNat
  · exact ⟨_, fetchExecute_of_pc_gt hpc, .raises _⟩
  · have hle : s.pc.toNat ≤ 0xFFE := by omega
    cases hdec : decodeWord s.fetchWord with
    | none => exact ⟨_, fetchExecute_of_illegal hle hdec, .raises _⟩
    | some i =>
      rw [fetchExecute_of_legal hle hdec]
      exact exec_bodyOutcome hdec

theorem cycleBody_of_wait {s : State} {x : Reg} (h : s.wait = some x) : cycleBody s = .next (waitStep x s) := by
  rw [cycleBody, h]

theorem cycleBody_of_wait_eq_none {s : State} (h : s.wait = none) : cycleBody s = fetchExecute s := by
  rw [cycleBody, h]

/-- The body of a cycle always answers a next state. -/
theorem cycleBody_eq_next (s : State) : ∃ t, cycleBody s = .next t ∧ BodyOutcome s t := by
  cases hw : s.wait with
  | none =>
    rw [cycleBody_of_wait_eq_none hw]
    exact fetchExecute_bodyOutcome s
  | some x => exact ⟨_, cycleBody_of_wait hw, .waits hw⟩

theorem bodyOutcome_of_eq_next {s t : State} (h : cycleBody s = .next t) : BodyOutcome s t := by
  obtain ⟨u, hu, hbody⟩ := cycleBody_eq_next s
  cases hu.symm.trans h
  exact hbody

/-- The wait step writes V registers, wait and pc at most (R88). -/
theorem waitStep_frame (x : Reg) (s : State) :
    waitStep x s = { s with v := (waitStep x s).v, wait := (waitStep x s).wait, pc := (waitStep x s).pc } := by
  unfold waitStep
  split <;> rfl

/-- A cycle leaves the parameters alone (R5). -/
theorem BodyOutcome.config_eq {s t : State} (h : BodyOutcome s t) : t.config = s.config := by
  cases h with
  | raises r => rfl
  | @waits x hwait => rw [waitStep_frame]
  | completes decoded run fault =>
    obtain ⟨-, -, -, -, -, -, -, -, -, -, -, hconfig⟩ := stateElementsHaveNoOtherWriter _ _ _ run
    exact hconfig

/-- A body that leaves a fault either found it or raised it and changed nothing else (R223). -/
theorem BodyOutcome.eq_raise_of_fault {s t : State} (h : BodyOutcome s t) (hs : s.fault = none) (ht : t.fault ≠ none) :
    ∃ r, t = s.raise r := by
  cases h with
  | raises r => exact ⟨r, rfl⟩
  | @waits x hwait =>
    rw [waitStep_frame] at ht
    exact absurd hs ht
  | completes decoded run fault => exact absurd (fault.trans hs) ht

/-- The body of a cycle changes DT in FX15 only and ST in FX18 only (R28, R29). -/
theorem BodyOutcome.timer_writers {s t : State} (h : BodyOutcome s t) :
    (t.dt ≠ s.dt → ∃ x, decodeWord s.fetchWord = some (.ldDTVx x)) ∧
      (t.st ≠ s.st → ∃ x, decodeWord s.fetchWord = some (.ldSTVx x)) := by
  cases h with
  | raises r => exact ⟨fun h => absurd rfl h, fun h => absurd rfl h⟩
  | @waits x hwait =>
    rw [waitStep_frame]
    exact ⟨fun h => absurd rfl h, fun h => absurd rfl h⟩
  | completes decoded run fault =>
    obtain ⟨-, -, -, -, -, -, hdt, hst, -⟩ := stateElementsHaveNoOtherWriter _ _ _ run
    refine ⟨fun h => ?_, fun h => ?_⟩
    · obtain ⟨x, rfl⟩ := hdt h
      exact ⟨x, decoded⟩
    · obtain ⟨x, rfl⟩ := hst h
      exact ⟨x, decoded⟩

/-! ### The whole cycle -/

theorem step_of_fault {s : State} {r : FaultRecord} (h : s.fault = some r) : step s = .next s := by
  rw [step, cycle, h]

theorem step_of_fault_eq_none {s t : State} (hs : s.fault = none) (h : cycleBody s = .next t) :
    step s = .next t.endCycle := by
  rw [step, cycle, hs, h]
  rfl

/-- What a cycle answers: the state itself where a fault is recorded, else the state its body leaves, with its timer
step. -/
theorem step_cases {s t : State} (h : step s = .next t) :
    (s.fault ≠ none ∧ t = s) ∨ ∃ u, s.fault = none ∧ BodyOutcome s u ∧ t = u.endCycle := by
  cases hs : s.fault with
  | some r =>
    cases (step_of_fault hs).symm.trans h
    exact .inl ⟨nofun, rfl⟩
  | none =>
    obtain ⟨u, hu, hbody⟩ := cycleBody_eq_next s
    cases (step_of_fault_eq_none hs hu).symm.trans h
    exact .inr ⟨u, rfl, hbody, rfl⟩

theorem cycleBeep_of_fault {s : State} {r : FaultRecord} (h : s.fault = some r) : cycleBeep s = false := by
  rw [cycleBeep, h]

/-- The beep signal is that of the timer step (R90, R236). -/
theorem cycleBeep_iff {s t : State} (hs : s.fault = none) (h : cycleBody s = .next t) :
    cycleBeep s = true ↔ t.fault = none ∧ s.config.timersOnCycle = true ∧ t.st = 1 := by
  have hconfig := (bodyOutcome_of_eq_next h).config_eq
  rw [cycleBeep, hs, h]
  simp [State.stepsTimers_iff, State.beep, hconfig, and_assoc]

/-- `execute_cycle` replies with the fault the next state holds and the beep signal (R90). -/
theorem executeCycle_of_step {s t : State} (h : step s = .next t) :
    Operation.executeCycle.onState s = .next (.running t, .cycle t.fault (cycleBeep s)) := by
  rw [Operation.onState, h]
  rfl

/-- Settles O6: the word decodes to nothing, since a legal word matches the row of its instruction. -/
theorem unmatchedWordRaisesUnknownOpcode : Obligations.UnmatchedWordRaisesUnknownOpcode := by
  intro s hrun hpc hunmatched
  have hdec : decodeWord s.fetchWord = none := by
    refine Option.eq_none_iff_forall_ne_some.2 fun i hi => ?_
    obtain ⟨r, hr, -, hmatch⟩ := match_of_decodeWord hi
    exact hunmatched r hr hmatch
  rw [step_of_running hrun, fetchExecute_of_illegal hpc hdec]
  exact finishCycle_raise s _

theorem core_run_of_step_self {s : State} (h : step s = .next s) (n : Nat) : core.run n s = .next s := by
  induction n with
  | zero => rfl
  | succ n ih =>
    have hstep : core.step s = .next s := h
    simp only [Host.Core.run, hstep, ih]

/-- Settles O11: a cycle that finds a fault is the identity, and so is any number of them. -/
theorem faultIsStickyUntilReset : Obligations.FaultIsStickyUntilReset := by
  intro s r hs
  have hstep := step_of_fault hs
  refine ⟨hstep, ?_, core_run_of_step_self hstep, rfl⟩
  rw [executeCycle_of_step hstep, hs, cycleBeep_of_fault hs]

/-- Settles O12: a recorded fault makes the cycle the identity without a beep; else the body answers a next state, and the
beep is that of the timer step from there. -/
theorem cycleNeverBlocksAndReports : Obligations.CycleNeverBlocksAndReports := by
  intro s
  cases hs : s.fault with
  | some r =>
    have hstep := step_of_fault hs
    refine ⟨s, cycleBeep s, hstep, executeCycle_of_step hstep, ?_⟩
    simp [cycleBeep_of_fault hs]
  | none =>
    obtain ⟨u, hu, -⟩ := cycleBody_eq_next s
    have hstep := step_of_fault_eq_none hs hu
    refine ⟨u.endCycle, cycleBeep s, hstep, executeCycle_of_step hstep, (cycleBeep_iff hs hu).trans ?_⟩
    constructor
    · rintro ⟨hfault, hcoupled, hst⟩
      exact ⟨rfl, hcoupled, u, hu, hfault, hst⟩
    · rintro ⟨-, hcoupled, u', hu', hfault, hst⟩
      cases hu.symm.trans hu'
      exact ⟨hfault, hcoupled, hst⟩

/-- Settles O15: the timer step rests on the fault and the parameters the body leaves, and a body that raises leaves the
timers as they were. -/
theorem coupledCycleStepsTimersOnce : Obligations.CoupledCycleStepsTimersOnce := by
  refine ⟨fun s u hcoupled hs hu hfault => ?_, fun s t ht hfault => ?_, fun s t huncoupled ht => ?_⟩
  · have hconfig := (bodyOutcome_of_eq_next hu).config_eq
    rw [step_of_fault_eq_none hs hu, State.endCycle_eq, if_pos ⟨hfault, hconfig ▸ hcoupled⟩, State.tick,
      timerTick_eq_sub, timerTick_eq_sub]
  · obtain ⟨-, rfl⟩ | ⟨u, hs, hbody, rfl⟩ := step_cases ht
    · exact ⟨rfl, rfl⟩
    · rw [State.endCycle_fault] at hfault
      obtain ⟨r, rfl⟩ := hbody.eq_raise_of_fault hs hfault
      rw [State.endCycle_of_fault hfault]
      exact ⟨rfl, rfl⟩
  · obtain ⟨-, rfl⟩ | ⟨u, -, hbody, rfl⟩ := step_cases ht
    · exact ⟨fun h => absurd rfl h, fun h => absurd rfl h⟩
    · rw [State.endCycle_of_uncoupled (hbody.config_eq ▸ huncoupled)]
      exact hbody.timer_writers

/-! ### The wait step -/

theorem toNat_byteOfKey (k : Reg) : (byteOfKey k).toNat = k.val := by
  have := k.isLt
  rw [byteOfKey, BitVec.toNat_ofNat]
  omega

theorem waitStep_of_isHighestKey {s : State} {k : Reg} (h : IsHighestKey s k) (x : Reg) :
    waitStep x s = s.takeKey x k := by
  rw [waitStep, (highestKey_eq_some_iff s.keys k).2 h]

theorem waitStep_of_noKeyDown {s : State} (h : NoKeyDown s) (x : Reg) : waitStep x s = s := by
  rw [waitStep, (highestKey_eq_none_iff s.keys).2 h]

/-- Settles O16: the wait step is `takeKey` of the highest key down, or nothing where none is. -/
theorem waitStepTakesHighestKey : Obligations.WaitStepTakesHighestKey := by
  intro s x hs hwait
  have hstep := step_of_fault_eq_none hs (cycleBody_of_wait hwait)
  refine ⟨fun k hk => ?_, fun hnone => ?_⟩
  · rw [waitStep_of_isHighestKey hk] at hstep
    refine ⟨s.takeKey x k, hstep, ?_, rfl, rfl, fun r hr => ?_, rfl⟩
    · rw [State.getV_takeKey, if_pos rfl, toNat_byteOfKey]
    · rw [State.getV_takeKey, if_neg hr]
  · rwa [waitStep_of_noKeyDown hnone] at hstep

/-! ### The decoded instruction -/

theorem decode_pair_eq_ok_iff (hi lo : Byte) (i : Instr) :
    decode [hi, lo] = .ok (i, []) ↔ decodeWord (wordOfBytes hi lo) = some i := by
  cases h : decodeWord (wordOfBytes hi lo) <;> simp [decode, h]

/-- Settles O9: the two bytes at pc are the word the fetch reads, and the timer step follows the instruction. -/
theorem stepRunsDecodedInstruction : Obligations.StepRunsDecodedInstruction := by
  intro s t i hrun hpc hdec hexec
  have hword : decodeWord s.fetchWord = some i := (decode_pair_eq_ok_iff _ _ i).1 hdec
  rw [step_of_running hrun, fetchExecute_of_legal hpc hword, hexec, finishCycle, State.endCycle_eq]

end Sys2Proof.Machine

/-! PROOFS. Control flow: the rows of the opcode table as the decoder reads them, the skips, the jumps, CALL and RET
(R100-R108). -/

namespace Sys2Proof.Machine

/-! ### Rows of the opcode table -/

/-- A row decodes to the instruction whose encoding puts every word of the row together again. -/
theorem rowDecodes_of_encodeWord {mask pattern : Word} {build : Word → Instr}
    (hwf : ∀ w, (build w).wellFormed = true) (h : ∀ w, w &&& mask = pattern → encodeWord (build w) = w) :
    RowDecodes mask pattern build := by
  intro w hw
  have hdec := decodeWord_encodeWord (hwf w)
  rwa [h w hw] at hdec

/-! ### Skips and jumps -/

/-- A skip whose test decides `p` moves pc, and nothing else (R100). -/
theorem State.skipIf_movesOnlyPc (s : State) {cond : Bool} {p : Prop} [Decidable p] (h : cond = true ↔ p) :
    (s.skipIf cond).pc = s.pc + (if p then 4 else 2) ∧ OnlyPc s (s.skipIf cond) ∧ SameMemory s (s.skipIf cond) := by
  refine ⟨?_, rfl, s.readByte_skipIf cond⟩
  rw [State.skipIf_pc, ← apply_ite (s.pc + ·)]
  exact congrArg (s.pc + ·) (if_congr h rfl rfl)

/-- Settles O17: each skip is `skipIf` of its own test. -/
theorem skipsMoveOnlyPc : Obligations.SkipsMoveOnlyPc := by
  refine ⟨?_, ?_, ?_, ?_, fun x y kk s => ⟨?_, ?_, ?_, ?_⟩⟩
  · exact rowDecodes_of_encodeWord (fun _ => rfl) fun w hw => encodeXKK_of_opField (opField_of_mask hw rfl)
  · exact rowDecodes_of_encodeWord (fun _ => rfl) fun w hw => encodeXKK_of_opField (opField_of_mask hw rfl)
  · exact rowDecodes_of_encodeWord (fun _ => rfl) fun w hw =>
      encodeXYN_of_opField_nField (opField_of_mask hw rfl) (nField_of_mask hw rfl)
  · exact rowDecodes_of_encodeWord (fun _ => rfl) fun w hw =>
      encodeXYN_of_opField_nField (opField_of_mask hw rfl) (nField_of_mask hw rfl)
  · exact ⟨_, rfl, s.skipIf_movesOnlyPc beq_iff_eq⟩
  · exact ⟨_, rfl, s.skipIf_movesOnlyPc bne_iff_ne⟩
  · exact ⟨_, rfl, s.skipIf_movesOnlyPc beq_iff_eq⟩
  · exact ⟨_, rfl, s.skipIf_movesOnlyPc bne_iff_ne⟩

@[simp] theorem toNat_zextAddr (a : Addr12) : (zextAddr a).toNat = a.toNat :=
  BitVec.toNat_setWidth_of_le (by decide)

@[simp] theorem toNat_zextByte (b : Byte) : (zextByte b).toNat = b.toNat :=
  BitVec.toNat_setWidth_of_le (by decide)

/-- V0 + NNN is at most 0x10FE, so the sum of R108 never wraps. -/
theorem State.toNat_indexedTarget (s : State) (nnn : Addr12) :
    (s.indexedTarget nnn).toNat = (s.getV 0).toNat + nnn.toNat := by
  have hV := (s.getV 0).isLt
  have hN := nnn.isLt
  rw [State.indexedTarget, BitVec.toNat_add, toNat_zextByte, toNat_zextAddr]
  omega

/-- Settles O18: both jumps are `jump`, which writes pc alone. -/
theorem jumpsSetOnlyPc : Obligations.JumpsSetOnlyPc := by
  refine ⟨?_, ?_, fun nnn s => ⟨?_, ?_⟩⟩
  · exact rowDecodes_of_encodeWord (fun _ => rfl) fun w hw => encodeNNN_of_opField (opField_of_mask hw rfl)
  · exact rowDecodes_of_encodeWord (fun _ => rfl) fun w hw => encodeNNN_of_opField (opField_of_mask hw rfl)
  · exact ⟨_, rfl, toNat_zextAddr nnn, rfl, s.readByte_jump _⟩
  · exact ⟨_, rfl, s.toNat_indexedTarget nnn, rfl, s.readByte_jump _⟩

/-! ### CALL and RET -/

theorem exec_call_of_sp_lt {s : State} (hs : s.sp.val < 16) (nnn : Addr12) :
    exec (.call nnn) s = .next { s with
      stack := s.stack.set s.sp.val s.pc hs, sp := ⟨s.sp.val + 1, by omega⟩, pc := zextAddr nnn } := by
  rw [exec, execCall, State.push, dif_pos hs]
  rfl

theorem exec_call_of_sp_eq {s : State} (hs : s.sp.val = 16) (nnn : Addr12) :
    exec (.call nnn) s = .next (s.raise (.stackOverflow (encodeWord (.call nnn)) s.pc)) := by
  rw [exec, execCall, (s.push_eq_none_iff s.pc).2 hs]

theorem exec_ret_of_sp_eq_succ {s : State} {j : Fin 16} (hj : s.sp.val = j.val + 1) :
    exec .ret s = .next { s with sp := j.castSucc, pc := s.stack.get j + 2#16 } := by
  have htop : s.sp.val - 1 = j.val := by omega
  rw [exec, execRet, State.pop, dif_neg (by omega)]
  simp only [htop]
  rfl

theorem exec_ret_of_sp_eq_zero {s : State} (hs : s.sp.val = 0) :
    exec .ret s = .next (s.raise (.stackUnderflow (encodeWord .ret) s.pc)) := by
  rw [exec, execRet, s.pop_eq_none_iff.2 hs]

/-- Settles O19: below 16 the slot at sp is the only one written; at 16 there is no slot to write. -/
theorem callPushesItsOwnAddress : Obligations.CallPushesItsOwnAddress := by
  refine ⟨?_, fun nnn s => ⟨fun hs => ?_, fun hs => ?_⟩⟩
  · exact rowDecodes_of_encodeWord (fun _ => rfl) fun w hw => encodeNNN_of_opField (opField_of_mask hw rfl)
  · refine ⟨_, exec_call_of_sp_lt hs nnn, toNat_zextAddr nnn, rfl, fun j => ?_, rfl, fun a => rfl⟩
    rw [Vector.get_eq_getElem, Vector.getElem_set, Vector.get_eq_getElem]
    exact if_congr eq_comm rfl rfl
  · exact exec_call_of_sp_eq hs nnn

/-- Settles O20: with sp above 0 the entry under sp is read and kept; at 0 there is no entry to read. -/
theorem returnPopsAndAddsTwo : Obligations.ReturnPopsAndAddsTwo := by
  refine ⟨rowDecodes_of_encodeWord (fun _ => rfl) fun w hw => ?_, fun s => ⟨fun j hj => ?_, fun hs => ?_⟩⟩
  · have hall : w &&& 0xFFFF#16 = w := BitVec.and_allOnes (w := 16)
    exact hw.symm.trans hall
  · exact ⟨_, exec_ret_of_sp_eq_succ hj, rfl, rfl, rfl, rfl, fun a => rfl⟩
  · exact exec_ret_of_sp_eq_zero hs

/-- Settles O21: the entry CALL pushed is the one RET pops. -/
theorem returnResumesAfterCall : Obligations.ReturnResumesAfterCall := by
  intro nnn s t u hs ht hstack hsp
  obtain ⟨-, hcall⟩ := callPushesItsOwnAddress
  obtain ⟨-, hret⟩ := returnPopsAndAddsTwo
  obtain ⟨t', ht', -, hspt, hstackt, -⟩ := (hcall nnn s).1 hs
  cases ht'.symm.trans ht
  obtain ⟨w, hw, hpcw, hspw, -⟩ := (hret u).1 ⟨s.sp.val, hs⟩ (by rw [hsp, hspt])
  refine ⟨w, hw, ?_, Fin.ext hspw⟩
  rw [hpcw, hstack, hstackt, if_pos rfl]

end Sys2Proof.Machine

/-! PROOFS. The 8-bit ALU, register moves and the random byte: what each writes, and the two orders of the write of VF
(R121-R133). -/

namespace Sys2Proof.Machine

/-! ### Rows and frames -/

/-- A row of format `XKK` is fixed by its group (R72, R74). -/
theorem rowDecodes_xkk {pattern : Word} {build : Word → Instr} (hwf : ∀ w, (build w).wellFormed = true)
    (h : ∀ w, encodeWord (build w) = encodeXKK (opField pattern) (xField w) (kkField w)) :
    RowDecodes 0xF000 pattern build :=
  rowDecodes_of_encodeWord hwf fun w hw => (h w).trans (encodeXKK_of_opField (opField_of_mask hw rfl))

/-- A row of format `XY` is fixed by its group and its N field (R72, R74). -/
theorem rowDecodes_xy {pattern : Word} {build : Word → Instr} (hwf : ∀ w, (build w).wellFormed = true)
    (h : ∀ w, encodeWord (build w) = encodeXYN (opField pattern) (xField w) (yField w) (nField pattern)) :
    RowDecodes 0xF00F pattern build :=
  rowDecodes_of_encodeWord hwf fun w hw =>
    (h w).trans (encodeXYN_of_opField_nField (opField_of_mask hw rfl) (nField_of_mask hw rfl))

theorem OnlyRegsPc.sameMemory {s t : State} (h : OnlyRegsPc s t) : SameMemory s t := fun a => by
  rw [h]
  rfl

/-- One register written, then the sequential advance (R121-R126). -/
theorem State.setV_advance_spec (s : State) (x : Reg) (b : Byte) :
    (s.setV x b).advance.getV x = b ∧ (s.setV x b).advance.pc = s.pc + 2 ∧
      SameRegsBut s (s.setV x b).advance (· = x) ∧ OnlyRegsPc s (s.setV x b).advance ∧
      SameMemory s (s.setV x b).advance :=
  ⟨s.getV_setV_self x b, rfl, fun _ hr => s.getV_setV_of_ne hr b, rfl, s.readByte_setV x b⟩

/-! ### The flag and the result, under each FLAG_ORDER -/

/-- The value of register `r` as the result of `writeFlagThenResult` reads it: table order has written `flag` to VF by
then, flag-last order has written nothing (R127). -/
def State.operandAfterFlag (s : State) (flag : Byte) (r : Reg) : Byte :=
  match s.config.flagOrder with
  | .tableOrder => (s.setV regF flag).getV r
  | .flagLast => s.getV r

section
variable {s : State} {x y r : Reg}

theorem State.operandAfterFlag_of_ne (hr : r ≠ regF) (flag : Byte) : s.operandAfterFlag flag r = s.getV r := by
  unfold State.operandAfterFlag
  split
  · exact s.getV_setV_of_ne hr flag
  · rfl

theorem State.operandAfterFlag_regF (h : s.config.flagOrder = .tableOrder) (flag : Byte) :
    s.operandAfterFlag flag regF = flag := by
  simp only [State.operandAfterFlag, h, State.getV_setV_self]

theorem State.operandAfterFlag_flagLast (h : s.config.flagOrder = .flagLast) (flag : Byte) (r : Reg) :
    s.operandAfterFlag flag r = s.getV r := by
  simp only [State.operandAfterFlag, h]

/-- The two flag-writing operations differ only in what their result reads (R127). -/
theorem State.writeFlagThenResult_eq (s : State) (x y : Reg) (flag : Byte) (result : Byte → Byte → Byte) :
    s.writeFlagThenResult x y flag result =
      s.writeFlagAndSum x flag (result (s.operandAfterFlag flag x) (s.operandAfterFlag flag y)) := by
  unfold State.writeFlagThenResult State.writeFlagAndSum State.operandAfterFlag
  cases s.config.flagOrder <;> rfl

theorem State.setV_comm (s : State) (h : x ≠ r) (a b : Byte) :
    (s.setV r a).setV x b = (s.setV x b).setV r a := by
  have hval : r.val ≠ x.val := fun e => h (Fin.ext e.symm)
  simp only [State.setV, Vector.set_comm _ _ hval]

/-- For X other than F the order of the two writes does not show (R127). -/
theorem State.writeFlagAndSum_of_ne (hx : x ≠ regF) (flag b : Byte) :
    s.writeFlagAndSum x flag b = (s.setV x b).setV regF flag := by
  unfold State.writeFlagAndSum
  split
  · exact s.setV_comm hx flag b
  · rfl

theorem State.writeFlagAndSum_tableOrder (h : s.config.flagOrder = .tableOrder) (x : Reg) (flag b : Byte) :
    s.writeFlagAndSum x flag b = (s.setV regF flag).setV x b := by
  simp only [State.writeFlagAndSum, h]

theorem State.writeFlagAndSum_flagLast (h : s.config.flagOrder = .flagLast) (x : Reg) (flag b : Byte) :
    s.writeFlagAndSum x flag b = (s.setV x b).setV regF flag := by
  simp only [State.writeFlagAndSum, h]

/-- X other than F: V[X] holds the result. -/
theorem State.getV_writeFlagAndSum_of_ne (hx : x ≠ regF) (flag b : Byte) :
    (s.writeFlagAndSum x flag b).getV x = b := by
  rw [State.writeFlagAndSum_of_ne hx, State.getV_setV_of_ne _ hx, State.getV_setV_self]

/-- X other than F: VF holds the flag. -/
theorem State.getV_regF_writeFlagAndSum_of_ne (hx : x ≠ regF) (flag b : Byte) :
    (s.writeFlagAndSum x flag b).getV regF = flag := by
  rw [State.writeFlagAndSum_of_ne hx, State.getV_setV_self]

/-- Table order: V[X] holds the result, whatever X is; with X = F it overwrites the flag. -/
theorem State.getV_writeFlagAndSum_tableOrder (h : s.config.flagOrder = .tableOrder) (x : Reg) (flag b : Byte) :
    (s.writeFlagAndSum x flag b).getV x = b := by
  rw [State.writeFlagAndSum_tableOrder h, State.getV_setV_self]

/-- Flag-last order: VF holds the flag, whatever X is. -/
theorem State.getV_regF_writeFlagAndSum_flagLast (h : s.config.flagOrder = .flagLast) (x : Reg) (flag b : Byte) :
    (s.writeFlagAndSum x flag b).getV regF = flag := by
  rw [State.writeFlagAndSum_flagLast h, State.getV_setV_self]

end

theorem State.writeFlagAndSum_sameRegsBut (s : State) (x : Reg) (flag b : Byte) :
    SameRegsBut s (s.writeFlagAndSum x flag b) (fun r => r = x ∨ r = regF) := by
  intro r hr
  obtain ⟨hx, hF⟩ := not_or.1 hr
  unfold State.writeFlagAndSum
  split
  · rw [State.getV_setV_of_ne _ hx, State.getV_setV_of_ne _ hF]
  · rw [State.getV_setV_of_ne _ hF, State.getV_setV_of_ne _ hx]

/-- The frame of every flag-writing instruction, put before what it says of its values. -/
theorem State.writeFlagAndSum_frame_and (s : State) (x : Reg) (flag b : Byte) {values : Prop} (h : values) :
    (s.writeFlagAndSum x flag b).advance.pc = s.pc + 2 ∧
      SameRegsBut s (s.writeFlagAndSum x flag b).advance (fun r => r = x ∨ r = regF) ∧
      OnlyRegsPc s (s.writeFlagAndSum x flag b).advance ∧ SameMemory s (s.writeFlagAndSum x flag b).advance ∧
      values :=
  have honly := s.writeFlagAndSum_onlyRegsPc x flag b
  ⟨by simp, s.writeFlagAndSum_sameRegsBut x flag b, honly, honly.sameMemory, h⟩

/-- Result and flag as numbers: `n` is the result where X is not F, `k` the result where X is F in table order. -/
theorem State.writeFlagAndSum_values {s : State} {x : Reg} {flag b : Byte} {f n k : Nat} (hf : flag.toNat = f)
    (hn : x ≠ regF → b.toNat = n) (hk : x = regF → s.config.flagOrder = .tableOrder → b.toNat = k) :
    (x ≠ regF → ((s.writeFlagAndSum x flag b).getV x).toNat = n ∧
      ((s.writeFlagAndSum x flag b).getV regF).toNat = f) ∧
    (x = regF → s.config.flagOrder = .tableOrder → ((s.writeFlagAndSum x flag b).getV regF).toNat = k) ∧
    (x = regF → s.config.flagOrder = .flagLast → ((s.writeFlagAndSum x flag b).getV regF).toNat = f) := by
  refine ⟨fun hx => ⟨?_, ?_⟩, fun hx ho => ?_, fun _ ho => ?_⟩
  · rw [State.getV_writeFlagAndSum_of_ne hx, hn hx]
  · rw [State.getV_regF_writeFlagAndSum_of_ne hx, hf]
  · have hb := hk hx ho
    subst hx
    rw [State.getV_writeFlagAndSum_tableOrder ho, hb]
  · rw [State.getV_regF_writeFlagAndSum_flagLast ho, hf]

/-- Flag and result of the two subtractions as numbers, for every aliasing of X and Y with F: in table order VF reads as
the flag by the time the result is computed (R129, R131). -/
theorem State.writeFlagAndSum_difference {s : State} {x y : Reg} {flag : Byte} {result : Byte → Byte → Byte}
    {f : Nat} {val : Nat → Nat → Nat} (hf : flag.toNat = f) (hval : ∀ a b, (result a b).toNat = val a.toNat b.toNat)
    (hself : ∀ a, result a a = 0) {t : State} (ht : t = (s.writeFlagAndSum x flag
      (result (s.operandAfterFlag flag x) (s.operandAfterFlag flag y))).advance) :
    (x ≠ regF → y ≠ regF →
      (t.getV x).toNat = val (s.getV x).toNat (s.getV y).toNat ∧ (t.getV regF).toNat = f) ∧
    (s.config.flagOrder = .tableOrder →
      (x ≠ regF → y = regF → (t.getV x).toNat = val (s.getV x).toNat f ∧ (t.getV regF).toNat = f) ∧
      (x = regF → y ≠ regF → (t.getV regF).toNat = val f (s.getV y).toNat) ∧
      (x = regF → y = regF → (t.getV regF).toNat = 0)) ∧
    (s.config.flagOrder = .flagLast →
      (t.getV regF).toNat = f ∧ (x ≠ regF → (t.getV x).toNat = val (s.getV x).toNat (s.getV y).toNat)) := by
  subst ht hf
  simp only [State.getV_advance]
  have hflag (hx : x ≠ regF) (b : Byte) : ((s.writeFlagAndSum x flag b).getV regF).toNat = flag.toNat := by
    rw [State.getV_regF_writeFlagAndSum_of_ne hx]
  refine ⟨fun hx hy => ⟨?_, hflag hx _⟩, fun ho => ⟨?_, ?_, ?_⟩, fun ho => ⟨?_, fun hx => ?_⟩⟩
  · rw [State.getV_writeFlagAndSum_of_ne hx, hval, State.operandAfterFlag_of_ne hx, State.operandAfterFlag_of_ne hy]
  · rintro hx rfl
    refine ⟨?_, hflag hx _⟩
    rw [State.getV_writeFlagAndSum_of_ne hx, hval, State.operandAfterFlag_of_ne hx, State.operandAfterFlag_regF ho]
  · rintro rfl hy
    rw [State.getV_writeFlagAndSum_tableOrder ho, hval, State.operandAfterFlag_of_ne hy, State.operandAfterFlag_regF ho]
  · rintro rfl rfl
    rw [State.getV_writeFlagAndSum_tableOrder ho, hself]
    rfl
  · rw [State.getV_regF_writeFlagAndSum_flagLast ho]
  · rw [State.getV_writeFlagAndSum_of_ne hx, hval, State.operandAfterFlag_flagLast ho,
      State.operandAfterFlag_flagLast ho]

/-! ### Flags and byte arithmetic as numbers -/

theorem toNat_flagByte (p : Prop) [Decidable p] : (flagByte (decide p)).toNat = if p then 1 else 0 := by
  by_cases h : p <;> simp [flagByte, h]

theorem toNat_carryFlag (a b : Byte) : (carryFlag a b).toNat = if 255 < a.toNat + b.toNat then 1 else 0 :=
  toNat_flagByte _

theorem toNat_noBorrowFlag (a b : Byte) : (noBorrowFlag a b).toNat = if b.toNat ≤ a.toNat then 1 else 0 :=
  toNat_flagByte _

theorem toNat_lowBitFlag (a : Byte) : (lowBitFlag a).toNat = a.toNat % 2 := by
  rw [lowBitFlag, BitVec.toNat_and]
  exact Nat.and_one_is_mod _

theorem toNat_highBitFlag (a : Byte) : (highBitFlag a).toNat = a.toNat / 128 := by
  rw [highBitFlag, BitVec.toNat_ushiftRight, Nat.shiftRight_eq_div_pow]

theorem toNat_sub_byte (a b : Byte) : (a - b).toNat = (256 + a.toNat - b.toNat) % 256 := by
  have hb := b.isLt
  rw [BitVec.toNat_sub]
  omega

theorem toNat_shiftRight_one (a : Byte) : (a >>> 1).toNat = a.toNat / 2 := by
  rw [BitVec.toNat_ushiftRight, Nat.shiftRight_eq_div_pow, pow_one]

theorem toNat_shiftLeft_one (a : Byte) : (a <<< 1).toNat = 2 * a.toNat % 256 := by
  rw [BitVec.toNat_shiftLeft, Nat.shiftLeft_eq, pow_one, mul_comm]

/-! ### Flag-writing instructions -/

theorem next_advance_congr {t u : State} (h : t = u) : (.next t.advance : Result) = .next u.advance :=
  congrArg (fun t : State => Host.Outcome.next t.advance) h

theorem exec_subReg (x y : Reg) (s : State) : exec (.subReg x y) s =
    let flag := noBorrowFlag (s.getV x) (s.getV y)
    .next (s.writeFlagAndSum x flag (s.operandAfterFlag flag x - s.operandAfterFlag flag y)).advance :=
  next_advance_congr (s.writeFlagThenResult_eq x y _ _)

theorem exec_subnReg (x y : Reg) (s : State) : exec (.subnReg x y) s =
    let flag := noBorrowFlag (s.getV y) (s.getV x)
    .next (s.writeFlagAndSum x flag (s.operandAfterFlag flag y - s.operandAfterFlag flag x)).advance :=
  next_advance_congr (s.writeFlagThenResult_eq x y _ _)

theorem exec_shr (x y : Reg) (s : State) : exec (.shr x y) s =
    let flag := lowBitFlag (s.getV x)
    .next (s.writeFlagAndSum x flag (s.operandAfterFlag flag x >>> 1)).advance :=
  next_advance_congr (s.writeFlagThenResult_eq x x _ _)

theorem exec_shl (x y : Reg) (s : State) : exec (.shl x y) s =
    let flag := highBitFlag (s.getV x)
    .next (s.writeFlagAndSum x flag (s.operandAfterFlag flag x <<< 1)).advance :=
  next_advance_congr (s.writeFlagThenResult_eq x x _ _)

/-- Settles O24: the sum and its carry are both read before any write. -/
theorem addWritesSumAndCarry : Obligations.AddWritesSumAndCarry := by
  refine ⟨rowDecodes_xy (fun _ => rfl) fun _ => rfl, fun x y s => ⟨_, rfl, s.writeFlagAndSum_frame_and x _ _ ?_⟩⟩
  have hsum := BitVec.toNat_add (s.getV x) (s.getV y)
  exact State.writeFlagAndSum_values (toNat_carryFlag _ _) (fun _ => hsum) fun _ _ => hsum

/-- Settles O25: the result is `a - b` on the operands as FLAG_ORDER has them read. -/
theorem subWritesDifferenceAndNoBorrow : Obligations.SubWritesDifferenceAndNoBorrow := by
  refine ⟨rowDecodes_xy (fun _ => rfl) fun _ => rfl, fun x y s =>
    ⟨_, exec_subReg x y s, s.writeFlagAndSum_frame_and x _ _ ?_⟩⟩
  exact State.writeFlagAndSum_difference (result := fun a b => a - b) (val := fun a b => (256 + a - b) % 256)
    (toNat_noBorrowFlag _ _) toNat_sub_byte BitVec.sub_self rfl

/-- Settles O26: the result is `b - a` on the operands as FLAG_ORDER has them read. -/
theorem subnWritesDifferenceAndNoBorrow : Obligations.SubnWritesDifferenceAndNoBorrow := by
  refine ⟨rowDecodes_xy (fun _ => rfl) fun _ => rfl, fun x y s =>
    ⟨_, exec_subnReg x y s, s.writeFlagAndSum_frame_and x _ _ ?_⟩⟩
  exact State.writeFlagAndSum_difference (result := fun a b => b - a) (val := fun a b => (256 + b - a) % 256)
    (toNat_noBorrowFlag _ _) (fun a b => toNat_sub_byte b a) BitVec.sub_self rfl

/-- Settles O27: with X = F in table order each shift moves the flag it has just written. -/
theorem shiftsMoveOneBitIntoVF : Obligations.ShiftsMoveOneBitIntoVF := by
  refine ⟨rowDecodes_xy (fun _ => rfl) fun _ => rfl, rowDecodes_xy (fun _ => rfl) fun _ => rfl, fun x s =>
    ⟨⟨_, fun y => exec_shr x y s, s.writeFlagAndSum_frame_and x _ _ ?_⟩,
      ⟨_, fun y => exec_shl x y s, s.writeFlagAndSum_frame_and x _ _ ?_⟩⟩⟩
  · refine State.writeFlagAndSum_values (toNat_lowBitFlag _) (fun hx => ?_) fun hx ho => ?_
    · rw [toNat_shiftRight_one, State.operandAfterFlag_of_ne hx]
    · rw [toNat_shiftRight_one, hx, State.operandAfterFlag_regF ho, toNat_lowBitFlag]
      omega
  · refine State.writeFlagAndSum_values (toNat_highBitFlag _) (fun hx => ?_) fun hx ho => ?_
    · rw [toNat_shiftLeft_one, State.operandAfterFlag_of_ne hx]
    · have hlt := (s.getV x).isLt
      rw [toNat_shiftLeft_one, hx, State.operandAfterFlag_regF ho, toNat_highBitFlag, ← hx]
      omega

/-! ### FLAG_ORDER -/

theorem State.writeFlagAndSum_withOrder {x : Reg} (hx : x ≠ regF) (s : State) (o o' : FlagOrder) (flag b : Byte) :
    (s.withOrder o').writeFlagAndSum x flag b = ((s.withOrder o).writeFlagAndSum x flag b).withOrder o' := by
  rw [State.writeFlagAndSum_of_ne hx, State.writeFlagAndSum_of_ne hx]
  rfl

theorem State.writeFlagThenResult_withOrder {x y : Reg} (hx : x ≠ regF) (hy : y ≠ regF) (s : State) (o o' : FlagOrder)
    (flag : Byte) (result : Byte → Byte → Byte) :
    (s.withOrder o').writeFlagThenResult x y flag result =
      ((s.withOrder o).writeFlagThenResult x y flag result).withOrder o' := by
  simp only [State.writeFlagThenResult_eq, State.operandAfterFlag_of_ne hx, State.operandAfterFlag_of_ne hy]
  exact State.writeFlagAndSum_withOrder hx s o o' _ _

/-- Settles O28: with X and Y other than F the two writes commute, and the operands read the same before and after the
write of VF. -/
theorem flagOrderMattersOnlyForVF : Obligations.FlagOrderMattersOnlyForVF := by
  intro x y s o o' hx hy i hi
  simp only [List.mem_cons, List.not_mem_nil, or_false] at hi
  rcases hi with rfl | rfl | rfl | rfl | rfl
  · exact ⟨_, rfl, next_advance_congr (State.writeFlagAndSum_withOrder hx s o o' _ _)⟩
  · exact ⟨_, rfl, next_advance_congr (State.writeFlagThenResult_withOrder hx hy s o o' _ _)⟩
  · exact ⟨_, rfl, next_advance_congr (State.writeFlagThenResult_withOrder hx hx s o o' _ _)⟩
  · exact ⟨_, rfl, next_advance_congr (State.writeFlagThenResult_withOrder hx hy s o o' _ _)⟩
  · exact ⟨_, rfl, next_advance_congr (State.writeFlagThenResult_withOrder hx hx s o o' _ _)⟩

/-! ### Instructions that write V[X] alone -/

/-- Settles O22: both are `setV`, the second of the sum. -/
theorem immediateLoadAndAdd : Obligations.ImmediateLoadAndAdd := by
  refine ⟨rowDecodes_xkk (fun _ => rfl) fun _ => rfl, rowDecodes_xkk (fun _ => rfl) fun _ => rfl,
    fun x kk s => ⟨⟨_, rfl, s.setV_advance_spec x kk⟩, ⟨_, rfl, ?_⟩⟩⟩
  obtain ⟨hval, hframe⟩ := s.setV_advance_spec x (s.getV x + kk)
  exact ⟨(congrArg BitVec.toNat hval).trans (BitVec.toNat_add _ _), hframe⟩

/-- Settles O23: each is `setV` of its own result. -/
theorem moveAndLogicWriteOnlyVx : Obligations.MoveAndLogicWriteOnlyVx := by
  refine ⟨?_, ?_, ?_, ?_, fun x y s => ⟨?_, ?_, ?_, ?_⟩⟩
  iterate 4 exact rowDecodes_xy (fun _ => rfl) fun _ => rfl
  iterate 4 exact ⟨_, rfl, s.setV_advance_spec x _⟩

/-- Settles O29: the byte stored is the AND with KK, whatever the draw is. -/
theorem randomByteIsMasked : Obligations.RandomByteIsMasked := by
  refine ⟨rowDecodes_xkk (fun _ => rfl) fun _ => rfl, fun x kk s => ?_⟩
  have hval (b : Byte) : (s.storeRandom x kk b).getV x = b &&& kk := by
    rw [State.getV_storeRandom, if_pos rfl]
  refine ⟨⟨_, rfl, hval _, rfl, rfl, fun r hr => ?_, rfl, s.readByte_storeRandom x kk _, fun hkk => ?_⟩, hval⟩
  · rw [State.getV_storeRandom, if_neg hr]
  · rw [hval, hkk]
    exact BitVec.and_zero

end Sys2Proof.Machine

/-! PROOFS. The index register and the memory transfers (R151-R156). -/

namespace Sys2Proof.Machine

/-! ### The index register -/

/-- A row of format `X` is fixed by its group and its KK field (R72, R74). -/
theorem rowDecodes_x {pattern : Word} {build : Word → Instr} (hwf : ∀ w, (build w).wellFormed = true)
    (h : ∀ w, encodeWord (build w) = encodeXKK (opField pattern) (xField w) (kkField pattern)) :
    RowDecodes 0xF0FF pattern build :=
  rowDecodes_of_encodeWord hwf fun w hw => by
    rw [h, ← kkField_of_mask hw rfl]
    exact encodeXKK_of_opField (opField_of_mask hw rfl)

/-- I written, then the sequential advance (R151-R153). -/
theorem State.setI_advance_spec (s : State) {w : Word} {n : Nat} (h : w.toNat = n) :
    (s.setI w).advance.i.toNat = n ∧ (s.setI w).advance.pc = s.pc + 2 ∧ OnlyIndexPc s (s.setI w).advance ∧
      SameMemory s (s.setI w).advance :=
  ⟨h, rfl, rfl, s.readByte_setI w⟩

/-- Five times a byte is at most 0x4FB, so the product of R153 never wraps. -/
theorem toNat_glyphAddress (b : Byte) : (glyphAddress b).toNat = b.toNat * 5 := by
  have hb := b.isLt
  rw [glyphAddress, BitVec.toNat_mul, toNat_zextByte]
  exact Nat.mod_eq_of_lt (show b.toNat * 5 < 65536 by omega)

theorem toNat_add_zextByte (w : Word) (b : Byte) : (w + zextByte b).toNat = (w.toNat + b.toNat) % 65536 := by
  rw [BitVec.toNat_add, toNat_zextByte]

/-- Settles O30: each is `setI` of its own address. -/
theorem indexInstructionsWriteOnlyI : Obligations.IndexInstructionsWriteOnlyI := by
  refine ⟨?_, rowDecodes_x (fun _ => rfl) fun _ => rfl, rowDecodes_x (fun _ => rfl) fun _ => rfl,
    fun x nnn s => ⟨?_, ?_, ?_⟩⟩
  · exact rowDecodes_of_encodeWord (fun _ => rfl) fun w hw => encodeNNN_of_opField (opField_of_mask hw rfl)
  · exact ⟨_, rfl, s.setI_advance_spec (toNat_zextAddr nnn)⟩
  · exact ⟨_, rfl, s.setI_advance_spec (toNat_add_zextByte s.i (s.getV x))⟩
  · exact ⟨_, rfl, s.setI_advance_spec (toNat_glyphAddress (s.getV x))⟩

/-! ### The bounds check of a block of `n + 1` bytes at I -/

theorem InRange.of_last_le {s : State} {n : Nat} (h : s.i.toNat + n ≤ 0xFFF) : InRange s (n + 1) :=
  fun k hk => by omega

theorem outOfRange_of_last_gt {a n : Nat} (h : 0xFFF < a + n) : outOfRange a (n + 1) = some (max a 0x1000) :=
  if_pos ⟨Nat.succ_pos n, h⟩

/-! ### Storing a block -/

theorem State.readByte_writeBlock_add (s : State) (a : Nat) {bs : List Byte} {k : Nat} (hk : k < bs.length) :
    (s.writeBlock a bs).readByte (a + k) = bs[k] := by
  rw [State.readByte_writeBlock, dif_pos ⟨by omega, by omega⟩]
  simp

/-- A block of `n` bytes stored, then the sequential advance: no byte outside the block changes (R154, R155). -/
theorem State.writeBlock_advance_frame (s : State) (a : Nat) {bs : List Byte} {n : Nat} (hn : bs.length = n) :
    (∀ b, b < a ∨ a + n ≤ b → (s.writeBlock a bs).advance.readByte b = s.readByte b) ∧
      (s.writeBlock a bs).advance.pc = s.pc + 2 ∧ OnlyMemoryPc s (s.writeBlock a bs).advance :=
  ⟨fun b hb => s.readByte_writeBlock_outside a bs b (hn ▸ hb), rfl, rfl⟩

/-- Hundreds, tens and units each fit a byte (R154). -/
theorem toNat_bcdDigits (b : Byte) : (bcdDigits b)[0].toNat = b.toNat / 100 ∧
    (bcdDigits b)[1].toNat = b.toNat / 10 % 10 ∧ (bcdDigits b)[2].toNat = b.toNat % 10 := by
  have hb := b.isLt
  have hfits {n : Nat} (hn : n < 256) : (BitVec.ofNat 8 n).toNat = n := Nat.mod_eq_of_lt hn
  exact ⟨hfits (by omega), hfits (by omega), hfits (by omega)⟩

theorem exec_ldB_of_inRange {s : State} (h : InRange s 3) (x : Reg) :
    exec (.ldB x) s = .next (s.writeBlock s.indexBase (bcdDigits (s.getV x))).advance :=
  State.checked_of_none ((outOfRange_indexBase_eq_none_iff s 3).2 h) (.ldB x) _

/-- Settles O31: the bounds check decides, and each digit is a byte of the block stored. -/
theorem decimalDigitsAreStored : Obligations.DecimalDigitsAreStored := by
  refine ⟨rowDecodes_x (fun _ => rfl) fun _ => rfl, fun x s => ⟨fun hle => ?_, fun k hk hgt hmin => ?_⟩⟩
  · obtain ⟨hhundreds, htens, hunits⟩ := toNat_bcdDigits (s.getV x)
    have hread {k : Nat} (hk : k < 3) := s.readByte_writeBlock_add s.indexBase (bs := bcdDigits (s.getV x)) hk
    refine ⟨_, exec_ldB_of_inRange (.of_last_le hle) x, ?_, ?_, ?_,
      s.writeBlock_advance_frame s.indexBase (length_bcdDigits _)⟩
    · exact (congrArg BitVec.toNat (hread (k := 0) (by decide))).trans hhundreds
    · exact (congrArg BitVec.toNat (hread (k := 1) (by decide))).trans htens
    · exact (congrArg BitVec.toNat (hread (k := 2) (by decide))).trans hunits
  · have hlowest : outOfRange s.indexBase 3 = some (s.indexBase + k) :=
      (outOfRange_eq_some_iff ..).2 ⟨⟨k, hk, rfl⟩, hgt, fun j hj hj' => Nat.add_le_add_left (hmin j hj hj') _⟩
    exact State.checked_of_some hlowest (.ldB x) _

/-- Settles O32: in range the block stored is V0 to VX in order; else the check records the lowest address. -/
theorem registerBlockIsStored : Obligations.RegisterBlockIsStored := by
  refine ⟨rowDecodes_x (fun _ => rfl) fun _ => rfl, fun x s => ⟨fun hle => ?_, fun hgt => ?_⟩⟩
  · refine ⟨_, exec_store_of_inRange (.of_last_le hle), fun r hr => ?_,
      s.writeBlock_advance_frame s.indexBase (s.length_regBlock x)⟩
    have hlt : r.val < (s.regBlock x).length := by
      rw [State.length_regBlock]
      exact Nat.lt_succ_of_le hr
    rw [State.readByte_advance, s.readByte_writeBlock_add _ hlt, State.getElem_regBlock]
  · exact State.checked_of_some (outOfRange_of_last_gt hgt) (.store x) _

/-! ### Loading a block -/

/-- For any register file, so that no proof has to evaluate the registers FX65 loads. -/
theorem State.advance_onlyRegsPc (s : State) (v : Vector Byte 16) : OnlyRegsPc s { s with v := v }.advance := rfl

/-- FX65's effect, then the sequential advance: V0..VX from memory, everything else but pc as before (R156). -/
theorem State.loadRegs_advance_spec (s : State) (x : Reg) :
    (∀ r : Reg, r ≤ x → (s.loadRegs x).advance.getV r = s.readByte (s.i.toNat + r.val)) ∧
      SameRegsBut s (s.loadRegs x).advance (· ≤ x) ∧ (s.loadRegs x).advance.pc = s.pc + 2 ∧
      OnlyRegsPc s (s.loadRegs x).advance ∧ SameMemory s (s.loadRegs x).advance := by
  have honly : OnlyRegsPc s (s.loadRegs x).advance := s.advance_onlyRegsPc _
  refine ⟨fun r hr => ?_, fun r hr => ?_, ?_, honly, honly.sameMemory⟩
  · rw [State.getV_advance, State.getV_loadRegs, if_pos (Fin.le_def.1 hr), State.indexBase]
  · rw [State.getV_advance, State.getV_loadRegs, if_neg fun h => hr (Fin.le_def.2 h)]
  · simp

theorem exec_load_of_inRange {s : State} {x : Reg} (h : InRange s (blockLength x)) :
    exec (.load x) s = .next (s.loadRegs x).advance :=
  State.checked_of_none ((outOfRange_indexBase_eq_none_iff s _).2 h) (.load x) _

/-- Settles O33: in range the registers up to X are read from the block; else the check records the lowest address. -/
theorem registerBlockIsLoaded : Obligations.RegisterBlockIsLoaded := by
  refine ⟨rowDecodes_x (fun _ => rfl) fun _ => rfl, fun x s => ⟨fun hle => ?_, fun hgt => ?_⟩⟩
  · exact ⟨_, exec_load_of_inRange (.of_last_le hle), s.loadRegs_advance_spec x⟩
  · exact State.checked_of_some (outOfRange_of_last_gt hgt) (.load x) _

/-- Settles O34: the load finds each register at the address where the store put it. -/
theorem storeThenLoadRestoresRegisters : Obligations.StoreThenLoadRestoresRegisters := by
  intro x s t u hrange ht hmem hi hconfig
  obtain ⟨-, hstore⟩ := registerBlockIsStored
  obtain ⟨-, hload⟩ := registerBlockIsLoaded
  have hle : s.i.toNat + x.val ≤ 0xFFF := hrange x.val (Nat.lt_succ_self x.val)
  obtain ⟨t', ht', hstored, -, -, honly⟩ := (hstore x s).1 hle
  cases ht'.symm.trans ht
  have hui : u.i = s.i := hi.trans (by rw [honly])
  obtain ⟨w, hw, hloaded, -⟩ := (hload x u).1 (by rwa [hui])
  refine ⟨w, hw, fun r hr => ?_⟩
  calc w.getV r
    _ = u.readByte (s.indexBase + r.val) := by rw [hloaded r hr, hui]; rfl
    _ = t.readByte (s.indexBase + r.val) := State.readByte_congr hmem hconfig _
    _ = s.getV r := hstored r hr

end Sys2Proof.Machine

/-! PROOFS. The display: CLS, and DXYN as the plot of a duplicate-free list of pixel indices (R170-R174). -/

namespace Sys2Proof.Machine

/-! ### CLS -/

/-- Settles O36: the blank buffer has no set pixel. -/
theorem clearBlanksAndFlags : Obligations.ClearBlanksAndFlags := by
  refine ⟨rowDecodes_of_encodeWord (fun _ => rfl) fun w hw => ?_, fun s =>
    ⟨_, rfl, fun px _ py _ hset => ?_, rfl, rfl, rfl, fun _ => rfl⟩⟩
  · exact hw.symm.trans (BitVec.and_allOnes (w := 16))
  · exact Bool.false_ne_true ((Gfx.pixel_zero _).symm.trans hset)

/-! ### The points a sprite plots -/

/-- The indices of the pixels that a sprite row drawn at column `x`, row `y` plots, in drawing order (R172). -/
def rowPoints (row : Byte) (x y : Nat) : List Nat :=
  ((List.range 8).filter (spriteBit row)).map fun k => pixelIndex (x + k) y

/-- The indices of the pixels that the rows of a sprite drawn from column `x`, row `y` plot, in drawing order (R173). -/
def spritePoints : List Byte → Nat → Nat → List Nat
  | [], _, _ => []
  | row :: rows, x, y => rowPoints row x y ++ spritePoints rows x (y + 1)

theorem Canvas.drawRow_eq_foldl_plot (row : Byte) (x y : Nat) (c : Canvas) :
    Canvas.drawRow row x y c = (rowPoints row x y).foldl Canvas.plot c := by
  rw [rowPoints, List.foldl_map, List.foldl_filter, Canvas.drawRow]

theorem Canvas.drawRows_eq_foldl_plot (rows : List Byte) (x y : Nat) (c : Canvas) :
    Canvas.drawRows rows x y c = (spritePoints rows x y).foldl Canvas.plot c := by
  induction rows generalizing y c with
  | nil => rfl
  | cons row rows ih =>
    rw [Canvas.drawRows, ih, Canvas.drawRow_eq_foldl_plot, spritePoints, List.foldl_append]

theorem mem_rowPoints {row : Byte} {x y p : Nat} :
    p ∈ rowPoints row x y ↔ ∃ k < 8, spriteBit row k = true ∧ pixelIndex (x + k) y = p := by
  simp [rowPoints, and_assoc]

theorem mem_spritePoints {rows : List Byte} {x y p : Nat} :
    p ∈ spritePoints rows x y ↔ ∃ r, ∃ h : r < rows.length, p ∈ rowPoints rows[r] x (y + r) := by
  induction rows generalizing y with
  | nil => simp [spritePoints]
  | cons row rows ih =>
    rw [spritePoints, List.mem_append, ih]
    constructor
    · rintro (h | ⟨r, hr, h⟩)
      · exact ⟨0, Nat.succ_pos _, h⟩
      · exact ⟨r + 1, Nat.succ_lt_succ hr, by rwa [Nat.add_right_comm] at h⟩
    · rintro ⟨_ | r, hr, h⟩
      · exact .inl h
      · exact .inr ⟨r, Nat.lt_of_succ_lt_succ hr, by rwa [Nat.add_right_comm]⟩

theorem lt_of_mem_spritePoints {rows : List Byte} {x y p : Nat} (h : p ∈ spritePoints rows x y) : p < 2048 := by
  obtain ⟨r, hr, hp⟩ := mem_spritePoints.1 h
  obtain ⟨k, -, -, rfl⟩ := mem_rowPoints.1 hp
  exact pixelIndex_lt _ _

/-- Eight columns are fewer than 64, so no two bits of a row fall on one pixel. -/
theorem nodup_rowPoints (row : Byte) (x y : Nat) : (rowPoints row x y).Nodup := by
  refine (List.nodup_range.filter _).map_on fun k hk l hl heq => ?_
  have hk8 : k < 8 := List.mem_range.1 (List.mem_of_mem_filter hk)
  have hl8 : l < 8 := List.mem_range.1 (List.mem_of_mem_filter hl)
  obtain ⟨hcol, -⟩ := (pixelIndex_eq_iff ..).1 heq
  omega

/-- With at most 32 rows no two rows fall on one row of the display: no pixel is touched twice in one draw (R173). -/
theorem nodup_spritePoints {rows : List Byte} (h : rows.length ≤ 32) (x y : Nat) : (spritePoints rows x y).Nodup := by
  induction rows generalizing y with
  | nil => exact List.nodup_nil
  | cons row rows ih =>
    have hlen : rows.length + 1 ≤ 32 := h
    refine (nodup_rowPoints row x y).append (ih (by omega) (y + 1)) fun p hfirst hrest => ?_
    obtain ⟨k, -, -, hk⟩ := mem_rowPoints.1 hfirst
    obtain ⟨r, hr, hp⟩ := mem_spritePoints.1 hrest
    obtain ⟨l, -, -, hl⟩ := mem_rowPoints.1 hp
    obtain ⟨-, hrow⟩ := (pixelIndex_eq_iff ..).1 (hk.trans hl.symm)
    omega

/-! ### Plotting a list of distinct points -/

section
variable {ps : List Nat}

theorem Canvas.pixel_foldl_plot (hps : ps.Nodup) (hlt : ∀ p ∈ ps, p < 2048) (c : Canvas) (q : Nat) :
    (ps.foldl Canvas.plot c).gfx.pixel q = (c.gfx.pixel q ^^ decide (q ∈ ps)) := by
  induction ps generalizing c with
  | nil => simp
  | cons p ps ih =>
    obtain ⟨hp, hps⟩ := List.nodup_cons.1 hps
    obtain ⟨hp2048, hlt⟩ := List.forall_mem_cons.1 hlt
    rw [List.foldl_cons, ih hps hlt, Canvas.plot_gfx, Gfx.pixel_flip _ _ _ hp2048, Bool.xor_assoc]
    by_cases hq : q = p
    · subst hq; simp [hp]
    · simp [hq]

/-- Of distinct points each is still as it was when its turn comes, so the collision is read off the first buffer. -/
theorem Canvas.collision_foldl_plot (hps : ps.Nodup) (hlt : ∀ p ∈ ps, p < 2048) (c : Canvas) :
    (ps.foldl Canvas.plot c).collision = (c.collision || ps.any c.gfx.pixel) := by
  induction ps generalizing c with
  | nil => simp
  | cons p ps ih =>
    obtain ⟨hp, hps⟩ := List.nodup_cons.1 hps
    obtain ⟨hp2048, hlt⟩ := List.forall_mem_cons.1 hlt
    have hkept : ps.any (c.gfx.flip p).pixel = ps.any c.gfx.pixel := by
      rw [Bool.eq_iff_iff, List.any_eq_true, List.any_eq_true]
      refine exists_congr fun q => and_congr_right fun hq => ?_
      have hne : q ≠ p := ne_of_mem_of_not_mem hq hp
      simp [Gfx.pixel_flip _ _ _ hp2048, hne]
    rw [List.foldl_cons, ih hps hlt, Canvas.plot_collision, Canvas.plot_gfx, hkept, List.any_cons, Bool.or_assoc]

end

/-! ### DXYN -/

/-- The indices of the pixels that DXYN inverts (R173). -/
def State.drawnPoints (s : State) (x y : Reg) (n : Nat) : List Nat :=
  spritePoints (s.spriteRows n) (s.getV x).toNat (s.getV y).toNat

section
variable {n : Nat}

theorem State.nodup_drawnPoints (hn : n < 16) (s : State) (x y : Reg) : (s.drawnPoints x y n).Nodup :=
  nodup_spritePoints (by rw [State.spriteRows, State.length_readBlock]; omega) _ _

theorem State.mem_drawnPoints {s : State} {x y : Reg} {p : Nat} :
    p ∈ s.drawnPoints x y n ↔ ∃ r < n, ∃ k < 8, spriteBit (s.readByte (s.i.toNat + r)) k = true ∧
      pixelIndex ((s.getV x).toNat + k) ((s.getV y).toNat + r) = p := by
  simp [State.drawnPoints, State.spriteRows, mem_spritePoints, mem_rowPoints, State.getElem_readBlock, State.indexBase]

theorem State.pixel_drawSprite (hn : n < 16) (s : State) (x y : Reg) (q : Nat) :
    (s.drawSprite x y n).gfx.pixel q = (s.gfx.pixel q ^^ decide (q ∈ s.drawnPoints x y n)) := by
  rw [State.drawSprite_gfx, Canvas.drawRows_eq_foldl_plot]
  exact Canvas.pixel_foldl_plot (s.nodup_drawnPoints hn x y) (fun _ => lt_of_mem_spritePoints) _ q

theorem State.getV_regF_drawSprite (hn : n < 16) (s : State) (x y : Reg) :
    (s.drawSprite x y n).getV regF = flagByte ((s.drawnPoints x y n).any s.gfx.pixel) := by
  rw [State.getV_drawSprite, if_pos rfl, Canvas.drawRows_eq_foldl_plot, ← State.drawnPoints,
    Canvas.collision_foldl_plot (s.nodup_drawnPoints hn x y) (fun _ => lt_of_mem_spritePoints), Bool.false_or]

end

theorem pixelIndex_of_lt {px py : Nat} (hx : px < 64) (hy : py < 32) : pixelIndex px py = py * 64 + px := by
  rw [pixelIndex, Nat.mod_eq_of_lt hx, Nat.mod_eq_of_lt hy]

/-- The sprite of `SpriteCovers` is the one DXYN draws. -/
theorem spriteCovers_iff_mem_drawnPoints (s : State) (x y : Reg) (n : Nat) {px py : Nat} (hx : px < 64)
    (hy : py < 32) :
    SpriteCovers s (s.getV x).toNat (s.getV y).toNat n px py ↔ py * 64 + px ∈ s.drawnPoints x y n := by
  simp only [SpriteCovers, State.mem_drawnPoints, ← pixelIndex_of_lt hx hy, pixelIndex_eq_iff, Nat.mod_eq_of_lt hx,
    Nat.mod_eq_of_lt hy, spriteBit]
  exact exists_congr fun r => and_congr_right fun _ => exists_congr fun k => and_congr_right fun _ => and_rotate.symm

theorem any_pixel_drawnPoints_iff (s : State) (x y : Reg) (n : Nat) :
    (s.drawnPoints x y n).any s.gfx.pixel = true ↔
      ∃ px < 64, ∃ py < 32, pixelAt s px py ∧ SpriteCovers s (s.getV x).toNat (s.getV y).toNat n px py := by
  rw [List.any_eq_true]
  constructor
  · rintro ⟨p, hp, hset⟩
    have hp2048 : p < 2048 := lt_of_mem_spritePoints hp
    have hpx : p % 64 < 64 := Nat.mod_lt _ (by decide)
    have hpy : p / 64 < 32 := by omega
    have hsplit : p / 64 * 64 + p % 64 = p := Nat.div_add_mod' p 64
    refine ⟨_, hpx, _, hpy, ?_, (spriteCovers_iff_mem_drawnPoints s x y n hpx hpy).2 ?_⟩
    · rwa [pixelAt, hsplit]
    · rwa [hsplit]
  · rintro ⟨px, hpx, py, hpy, hset, hcov⟩
    exact ⟨_, (spriteCovers_iff_mem_drawnPoints s x y n hpx hpy).1 hcov, hset⟩

theorem exec_drw_of_inRange {s : State} {n : Nat} (h : InRange s n) (x y : Reg) :
    exec (.drw x y n) s = .next (s.drawSprite x y n).advance :=
  State.checked_of_none ((outOfRange_indexBase_eq_none_iff s n).2 h) (.drw x y n) _

theorem exec_drw_of_not_inRange {s : State} {n : Nat} (h : ¬ InRange s n) (x y : Reg) :
    exec (.drw x y n) s =
      .next (s.raise (.memoryOutOfRange (encodeWord (.drw x y n)) s.pc (max s.i.toNat 0x1000))) := by
  obtain ⟨a, ha⟩ := Option.ne_none_iff_exists'.1 (mt (outOfRange_indexBase_eq_none_iff s n).1 h)
  cases outOfRange_eq_some ha
  exact State.checked_of_some ha (.drw x y n) _

theorem State.drawSprite_advance_onlyDisplayRegsPc (s : State) (x y : Reg) (n : Nat) :
    OnlyDisplayRegsPc s (s.drawSprite x y n).advance := rfl

theorem rowDecodes_drw : RowDecodes 0xF000 0xD000 fun w => .drw (xField w) (yField w) (nField w).toNat := by
  refine rowDecodes_of_encodeWord (fun w => decide_eq_true (nField w).isLt) fun w hw => ?_
  rw [encodeWord, BitVec.ofNat_toNat, BitVec.setWidth_eq]
  exact encodeXYN_of_opField_nField (opField_of_mask hw rfl) rfl

/-- Settles O37: the points plotted are the pixels covered, and a draw inverts each of them once. -/
theorem drawXorsSpriteWithCollision : Obligations.DrawXorsSpriteWithCollision := by
  refine ⟨rowDecodes_drw, fun x y n s hn => ⟨fun hrange => ?_, fun hrange => exec_drw_of_not_inRange hrange x y⟩⟩
  refine ⟨_, exec_drw_of_inRange hrange x y, fun px hpx py hpy => ?_, fun hhit => ?_, fun hmiss => ?_, rfl, rfl,
    fun r hr => ?_, s.drawSprite_advance_onlyDisplayRegsPc x y n, s.readByte_drawSprite x y n⟩
  · rw [spriteCovers_iff_mem_drawnPoints s x y n hpx hpy, pixelAt, State.advance_gfx, State.pixel_drawSprite hn, pixelAt]
    cases s.gfx.pixel (py * 64 + px) <;> simp
  · rw [State.getV_advance, State.getV_regF_drawSprite hn, (any_pixel_drawnPoints_iff s x y n).2 hhit]
    rfl
  · have hnone : (s.drawnPoints x y n).any s.gfx.pixel = false := by
      rw [Bool.eq_false_iff, Ne, any_pixel_drawnPoints_iff]
      rintro ⟨px, hpx, py, hpy, hset, hcov⟩
      exact hmiss px hpx py hpy hset hcov
    rw [State.getV_advance, State.getV_regF_drawSprite hn, hnone]
    rfl
  · rw [State.getV_advance, State.getV_drawSprite, if_neg hr]

/-! ### Drawing twice -/

theorem byte_ne_zero_iff_spriteBit (b : Byte) : b ≠ 0 ↔ ∃ k < 8, spriteBit b k = true := by
  constructor
  · contrapose!
    intro h
    refine BitVec.eq_of_getLsbD_eq fun i hi => ?_
    have hbit := h (7 - i) (by omega)
    rw [spriteBit, show 7 - (7 - i) = i by omega] at hbit
    simpa using hbit
  · rintro ⟨k, -, hk⟩ rfl
    simp [spriteBit] at hk

theorem State.exists_mem_drawnPoints_iff (s : State) (x y : Reg) (n : Nat) :
    (∃ p, p ∈ s.drawnPoints x y n) ↔ ∃ r < n, s.readByte (s.i.toNat + r) ≠ 0 := by
  simp only [State.mem_drawnPoints, byte_ne_zero_iff_spriteBit]
  constructor
  · rintro ⟨_, r, hr, k, hk, hbit, -⟩
    exact ⟨r, hr, k, hk, hbit⟩
  · rintro ⟨r, hr, k, hk, hbit⟩
    exact ⟨_, r, hr, k, hk, hbit, rfl⟩

/-- With coordinates outside VF, the next draw plots the same points. -/
theorem State.drawnPoints_drawSprite_advance {x y : Reg} (hx : x ≠ regF) (hy : y ≠ regF) (s : State) (n : Nat) :
    (s.drawSprite x y n).advance.drawnPoints x y n = s.drawnPoints x y n := by
  have hkept {r : Reg} (hr : r ≠ regF) : (s.drawSprite x y n).advance.getV r = s.getV r := by
    rw [State.getV_advance, State.getV_drawSprite, if_neg hr]
  rw [State.drawnPoints, hkept hx, hkept hy]
  rfl

theorem flagByte_eq_one_iff (b : Bool) : flagByte b = 1 ↔ b = true := by cases b <;> decide

/-- Settles O38: two inversions of the same points cancel, and on a blank display the first draw sets them all. -/
theorem drawingTwiceRestoresDisplay : Obligations.DrawingTwiceRestoresDisplay := by
  intro x y n s hx hy hn hrange
  have hpoints := s.drawnPoints_drawSprite_advance hx hy n
  have hrange' : InRange (s.drawSprite x y n).advance n := hrange
  refine ⟨_, _, exec_drw_of_inRange hrange x y, exec_drw_of_inRange hrange' x y, ?_, fun hblank => ?_⟩
  · refine BitVec.eq_of_getLsbD_eq fun q _ => ?_
    change ((s.drawSprite x y n).advance.drawSprite x y n).gfx.pixel q = s.gfx.pixel q
    rw [State.pixel_drawSprite hn, hpoints, State.advance_gfx, State.pixel_drawSprite hn, Bool.xor_assoc, Bool.xor_self,
      Bool.xor_false]
  · have hfirst (q : Nat) : (s.drawSprite x y n).advance.gfx.pixel q = decide (q ∈ s.drawnPoints x y n) := by
      rw [State.advance_gfx, State.pixel_drawSprite hn, hblank]
      exact (congrArg (· ^^ _) (Gfx.pixel_zero q)).trans (Bool.false_xor _)
    rw [State.getV_advance, State.getV_regF_drawSprite hn, hpoints, flagByte_eq_one_iff, List.any_eq_true,
      ← s.exists_mem_drawnPoints_iff x y]
    exact exists_congr fun q => and_iff_left_of_imp fun hq => (hfirst q).trans (decide_eq_true hq)

end Sys2Proof.Machine

/-! PROOFS. The key skips, the timer accesses, and FX0A (R190-R197). -/

namespace Sys2Proof.Machine

/-! ### FX0A -/

theorem exec_ldVxK_of_isHighestKey {s : State} {k : Reg} (h : IsHighestKey s k) (x : Reg) :
    exec (.ldVxK x) s = .next (s.takeKey x k) := by
  rw [exec, execLdVxK, (highestKey_eq_some_iff s.keys k).2 h]

theorem exec_ldVxK_of_noKeyDown {s : State} (h : NoKeyDown s) (x : Reg) :
    exec (.ldVxK x) s = .next { s with wait := some x } := by
  rw [exec, execLdVxK, (highestKey_eq_none_iff s.keys).2 h]

/-- With no wait to end, taking a key is a register write and the sequential advance (R195). -/
theorem State.takeKey_of_wait_eq_none {s : State} (h : s.wait = none) (x k : Reg) :
    s.takeKey x k = (s.setV x (byteOfKey k)).advance := by
  rw [State.takeKey, ← h]
  rfl

/-- Settles O41: the highest key down is taken at once; where none is, only the wait is entered. -/
theorem keyInstructionTakesHighestOrWaits : Obligations.KeyInstructionTakesHighestOrWaits := by
  refine ⟨rowDecodes_x (fun _ => rfl) fun _ => rfl, fun x s hwait =>
    ⟨fun k hk => ?_, fun hnone => exec_ldVxK_of_noKeyDown hnone x⟩⟩
  have hexec : exec (.ldVxK x) s = .next (s.setV x (byteOfKey k)).advance := by
    rw [exec_ldVxK_of_isHighestKey hk, State.takeKey_of_wait_eq_none hwait]
  obtain ⟨hval, hframe⟩ := s.setV_advance_spec x (byteOfKey k)
  exact ⟨_, hexec, (congrArg BitVec.toNat hval).trans (toNat_byteOfKey k), hframe⟩

/-! ### The key skips -/

section
variable {s : State} {x : Reg}

theorem State.keySkip_of_key {k : Reg} (h : (s.getV x).toNat = k.val) (i : Instr) (level : Bool) :
    s.keySkip i x level = .next (s.skipIf (s.keys.get k == level)) := by
  rw [State.keySkip, (keyOperand_eq_some_iff _ k).2 h]
  rfl

theorem State.keySkip_of_gt (h : 0xF < (s.getV x).toNat) (i : Instr) (level : Bool) :
    s.keySkip i x level = .next (s.raise (.keyIndexOutOfRange (encodeWord i) s.pc (s.getV x))) := by
  rw [State.keySkip, (keyOperand_eq_none_iff _).2 h]

end

/-- Settles O39: both skips are `keySkip`, each with the level it tests for. -/
theorem keySkipsTestTheLevel : Obligations.KeySkipsTestTheLevel := by
  refine ⟨rowDecodes_x (fun _ => rfl) fun _ => rfl, rowDecodes_x (fun _ => rfl) fun _ => rfl, fun x s =>
    ⟨fun k hk => ⟨?_, ?_⟩, fun hgt => ⟨?_, ?_⟩⟩⟩
  · exact ⟨_, State.keySkip_of_key hk (.skp x) true, s.skipIf_movesOnlyPc beq_iff_eq⟩
  · exact ⟨_, State.keySkip_of_key hk (.sknp x) false, s.skipIf_movesOnlyPc beq_iff_eq⟩
  · exact State.keySkip_of_gt hgt (.skp x) true
  · exact State.keySkip_of_gt hgt (.sknp x) false

/-! ### The timer accesses -/

/-- Settles O40: reading DT is `setV`; setting a timer writes that element alone. -/
theorem timerAccessCopiesOneByte : Obligations.TimerAccessCopiesOneByte := by
  refine ⟨?_, ?_, ?_, fun x s => ⟨?_, ?_, ?_⟩⟩
  iterate 3 exact rowDecodes_x (fun _ => rfl) fun _ => rfl
  · exact ⟨_, rfl, s.setV_advance_spec x s.dt⟩
  · exact ⟨_, rfl, rfl, rfl, rfl, fun _ => rfl⟩
  · exact ⟨_, rfl, rfl, rfl, rfl, fun _ => rfl⟩

end Sys2Proof.Machine

/-! PROOFS. Faults as the cycle raises them: nothing but the record changes, and the record names pc and the cause
(R220-R224). -/

namespace Sys2Proof.Machine

/-! ### The fault an instruction raises -/

theorem FaultRecord.truthful.pc_eq {s : State} {r : FaultRecord} (h : r.truthful s) : r.pc = s.pc := by
  cases r <;> exact h.1

/-- A fault that an instruction leaves is one it raised: it names the instruction, its cause is true, and nothing else has
changed (R221, R223). -/
theorem exec_eq_raise_of_fault {i : Instr} {s t : State} {r : FaultRecord} (hi : i.wellFormed = true)
    (hs : s.fault = none) (ht : exec i s = .next t) (hr : t.fault = some r) :
    t = s.raise r ∧ r.opcode = some (encodeWord i) ∧ r.truthful s := by
  have hout := exec_outcome hi s
  rw [ht] at hout
  cases hout with
  | completes fault config mem => exact nomatch hr.symm.trans (fault.trans hs)
  | raises opcode cause =>
    cases hr
    exact ⟨rfl, opcode, cause⟩

/-- Settles O14: a well-formed instruction that leaves a fault has raised a truthful one, and a truthful record holds
pc. -/
theorem raisedFaultNamesItsCause : Obligations.RaisedFaultNamesItsCause := by
  intro i s t r hi hs ht hr
  obtain ⟨-, hopcode, hcause⟩ := exec_eq_raise_of_fault hi hs ht hr
  exact ⟨hopcode, hcause.pc_eq, hcause⟩

/-! ### The fault a cycle raises -/

/-- A fault of the fetch, the decoder or the instruction is truthful and the only change (R59, R76, R223). -/
theorem fetchExecute_eq_raise_of_fault {s t : State} {r : FaultRecord} (hs : s.fault = none)
    (ht : fetchExecute s = .next t) (hr : t.fault = some r) : t = s.raise r ∧ r.truthful s := by
  by_cases hpc : 0xFFE < s.pc.toNat
  · cases (fetchExecute_of_pc_gt hpc).symm.trans ht
    cases hr
    exact ⟨rfl, rfl, hpc⟩
  · have hle : s.pc.toNat ≤ 0xFFE := Nat.le_of_not_lt hpc
    cases hdec : decodeWord s.fetchWord with
    | none =>
      cases (fetchExecute_of_illegal hle hdec).symm.trans ht
      cases hr
      exact ⟨rfl, rfl, hdec⟩
    | some i =>
      rw [fetchExecute_of_legal hle hdec] at ht
      obtain ⟨heq, -, hcause⟩ := exec_eq_raise_of_fault (decodeWord_wellFormed hdec) hs ht hr
      exact ⟨heq, hcause⟩

/-- Only a cycle that fetches can raise: the wait step leaves `fault` alone (R88). -/
theorem cycleBody_eq_raise_of_fault {s t : State} {r : FaultRecord} (hs : s.fault = none)
    (ht : cycleBody s = .next t) (hr : t.fault = some r) : t = s.raise r ∧ r.truthful s := by
  cases hw : s.wait with
  | none => exact fetchExecute_eq_raise_of_fault hs ((cycleBody_of_wait_eq_none hw).symm.trans ht) hr
  | some x =>
    cases (cycleBody_of_wait hw).symm.trans ht
    rw [waitStep_frame] at hr
    exact nomatch hs.symm.trans hr

/-- Settles O13: the timer step is skipped after a fault, so the state that raising leaves is the one the cycle ends in. -/
theorem faultsArePrecise : Obligations.FaultsArePrecise := by
  intro s t r hs ht hr
  obtain ⟨u, hu, -⟩ := cycleBody_eq_next s
  cases (step_of_fault_eq_none hs hu).symm.trans ht
  rw [State.endCycle_fault] at hr
  obtain ⟨rfl, hcause⟩ := cycleBody_eq_raise_of_fault hs hu hr
  exact ⟨State.endCycle_of_fault nofun, hcause.pc_eq⟩

end Sys2Proof.Machine

/-! PROOFS. The tick, the key latch and draw_flag as the host's operations write them (R235-R243). -/

namespace Sys2Proof.Machine

/-! ### The tick -/

/-- A tick is a subtraction in the natural numbers, which stops at 0 as the timer does (R236). -/
theorem toNat_timerTick (b : Byte) : (timerTick b).toNat = b.toNat - 1 := by
  by_cases h : b = 0#8
  · rw [timerTick, if_pos h, h]
    rfl
  · rw [timerTick, if_neg h]
    bv_omega

theorem State.beep_iff (s : State) : s.beep = true ↔ s.st.toNat = 1 := by
  rw [State.beep, beq_iff_eq]
  bv_omega

theorem State.tickTimers_of_uncoupled {s : State} (h : s.config.timersOnCycle = false) :
    s.tickTimers = .next s.tick := by
  rw [State.tickTimers, h]
  rfl

theorem State.tickTimers_of_coupled {s : State} (h : s.config.timersOnCycle = true) :
    s.tickTimers = .refused .noSeparateTick := by
  rw [State.tickTimers, h]
  rfl

/-- A refused operation leaves the block as it was (R222, R237). -/
theorem Block.after_of_refused {s : State} {op : Operation} {e : Refusal} (h : op.onState s = .refused e) :
    (Block.running s).after op = .running s := by
  rw [Block.after, Operation.perform, h]

/-- Settles O42: uncoupled, the operation is the tick of the state with its beep; coupled, it is refused. -/
theorem tickLowersTimersAndBeepsAtOne : Obligations.TickLowersTimersAndBeepsAtOne := by
  refine fun s => ⟨fun huncoupled => ?_, fun hcoupled => ?_⟩
  · refine ⟨s.tick, s.beep, ?_, s.beep_iff, toNat_timerTick s.dt, toNat_timerTick s.st, rfl⟩
    rw [Operation.onState, State.tickTimers_of_uncoupled huncoupled, replying]
  · have hrefused : Operation.tickTimers.onState s = .refused .noSeparateTick := by
      rw [Operation.onState, State.tickTimers_of_coupled hcoupled, replying]
    exact ⟨hrefused, Block.after_of_refused hrefused⟩

/-! ### The key latch and draw_flag -/

theorem State.setKey_of_lt {k : Nat} (h : k < 16) (s : State) (down : Bool) :
    s.setKey k down = .next { s with keys := s.keys.set k down h } := dif_pos h

theorem State.setKey_of_le {k : Nat} (h : 16 ≤ k) (s : State) (down : Bool) :
    s.setKey k down = .refused .noSuchKey := dif_neg (Nat.not_lt.2 h)

/-- Settles O46: below 16 the slot k is the only one written; from 16 on there is no slot to write. -/
theorem keyAndFlagOperationsWriteOneElement : Obligations.KeyAndFlagOperationsWriteOneElement := by
  refine fun s => ⟨⟨s.clearDrawFlag, rfl, rfl, rfl⟩, fun k down => ⟨fun hk => ?_, fun hk => ?_⟩⟩
  · refine ⟨{ s with keys := s.keys.set k down hk }, ?_, fun j => ?_, rfl⟩
    · rw [Operation.onState, State.setKey_of_lt hk, replying]
    · rw [Vector.get_eq_getElem, Vector.getElem_set, Vector.get_eq_getElem]
      exact if_congr eq_comm rfl rfl
  · rw [Operation.onState, State.setKey_of_le hk, replying]

end Sys2Proof.Machine

/-! PROOFS. Reset and loading a program: the contents each leaves, and the first cycle after a reset (R260-R268). -/

namespace Sys2Proof.Machine

/-! ### load_program -/

theorem State.loadProgram_of_le {bytes : List Byte} (h : bytes.length ≤ maxProgramLength) (s : State) :
    s.loadProgram bytes = .next (s.writeBlock 0x200 bytes) := if_neg (Nat.not_lt.2 h)

theorem State.loadProgram_of_gt {bytes : List Byte} (h : maxProgramLength < bytes.length) (s : State) :
    s.loadProgram bytes = .fault .programTooLarge := if_pos h

/-- A rejected operation leaves the block as it was (R222, R267). -/
theorem Block.after_of_fault {s : State} {op : Operation} {e : Fault} (h : op.onState s = .fault e) :
    (Block.running s).after op = .running s := by
  rw [Block.after, Operation.perform, h]

/-- Settles O45: a program that fits is one block stored at 0x200; a longer one is rejected before anything is
written. -/
theorem loadProgramCopiesOrRejects : Obligations.LoadProgramCopiesOrRejects := by
  refine fun s bytes => ⟨fun hfits => ?_, fun hlong => ?_⟩
  · refine ⟨s.writeBlock 0x200 bytes, ?_, fun j hj => s.readByte_writeBlock_add 0x200 hj,
      fun a ha => s.readByte_writeBlock_outside 0x200 bytes a ha, rfl⟩
    rw [Operation.onState, State.loadProgram_of_le hfits, replying]
  · have hrejected : (Operation.loadProgram bytes).onState s = .fault .programTooLarge := by
      rw [Operation.onState, State.loadProgram_of_gt hlong, replying]
    exact ⟨hrejected, Block.after_of_fault hrejected⟩

/-! ### Reset -/

section
variable (c : Config) (n : Nat)

/-- Reset memory lists no cell, so it reads as the font and then zero (R20, R51). -/
theorem State.readByte_resetWith_of_lt {a : Nat} (h : a < 80) : (State.resetWith c n).readByte a = c.font[a] :=
  dif_pos h

theorem State.readByte_resetWith_of_le {a : Nat} (h : 80 ≤ a) : (State.resetWith c n).readByte a = 0 :=
  dif_neg (Nat.not_lt.2 h)

@[simp] theorem State.getV_resetWith (r : Reg) : (State.resetWith c n).getV r = 0 := by
  simp [State.getV, State.resetWith, Vector.get_eq_getElem]

@[simp] theorem State.stack_get_resetWith (j : Fin 16) : (State.resetWith c n).stack.get j = 0 := by
  simp [State.resetWith, Vector.get_eq_getElem]

@[simp] theorem State.keys_get_resetWith (k : Reg) : (State.resetWith c n).keys.get k = false := by
  simp [State.resetWith, Vector.get_eq_getElem]

theorem not_pixelAt_resetWith (px py : Nat) : ¬ pixelAt (State.resetWith c n) px py :=
  fun hset => Bool.false_ne_true ((Gfx.pixel_zero _).symm.trans hset)

theorem State.running_resetWith : Running (State.resetWith c n) := ⟨rfl, rfl⟩

/-- The two bytes at the reset value of pc lie in the program area, which reset clears (R262). -/
theorem State.fetchWord_resetWith : (State.resetWith c n).fetchWord = 0x0000 := by
  have hhi : (State.resetWith c n).readByte 0x200 = 0 := State.readByte_resetWith_of_le c n (by decide)
  have hlo : (State.resetWith c n).readByte 0x201 = 0 := State.readByte_resetWith_of_le c n (by decide)
  calc (State.resetWith c n).fetchWord
    _ = wordOfBytes ((State.resetWith c n).readByte 0x200) ((State.resetWith c n).readByte 0x201) := rfl
    _ = 0x0000 := by rw [hhi, hlo]; rfl

/-- The cleared word is illegal, so the first cycle records UnknownOpcode(0x0000, 0x0200) (R262). -/
theorem step_resetWith : step (State.resetWith c n) =
    .next ((State.resetWith c n).raise (.unknownOpcode 0x0000 0x0200)) := by
  have hdec : decodeWord (State.resetWith c n).fetchWord = none := by
    rw [State.fetchWord_resetWith]
    decide
  have hpc : (State.resetWith c n).pc = 0x0200 := rfl
  rw [step_of_running (State.running_resetWith c n), fetchExecute_of_illegal (by rw [hpc]; decide) hdec,
    State.fetchWord_resetWith, hpc]
  exact finishCycle_raise _ _

end

/-- Settles O43: every reset leaves `State.resetWith`, whose memory lists nothing and whose other elements are zero,
false or none, but for pc. -/
theorem resetSetsEveryElement : Obligations.ResetSetsEveryElement := by
  refine ⟨fun s => ⟨s.afterReset, rfl, ?_, ?_, ?_, ?_, ?_, rfl, rfl, rfl, rfl, ?_, rfl, rfl, rfl, rfl⟩, rfl⟩
  · exact fun _ ha => State.readByte_resetWith_of_lt s.config s.draws ha
  · exact fun _ ha => State.readByte_resetWith_of_le s.config s.draws ha
  · exact State.getV_resetWith s.config s.draws
  · exact State.stack_get_resetWith s.config s.draws
  · exact State.keys_get_resetWith s.config s.draws
  · exact fun px _ py _ => not_pixelAt_resetWith s.config s.draws px py

/-- Settles O44: the program area lies above the font, and the word fetched from it at 0x0200 is no instruction. -/
theorem cycleAfterResetIsUnknownOpcode : Obligations.CycleAfterResetIsUnknownOpcode := fun s =>
  ⟨fun _ hlow _ => State.readByte_resetWith_of_le s.config s.draws (le_trans (by decide) hlow),
    step_resetWith s.config s.draws⟩

/-- Settles O52: `State.reset` is the reset state under the default parameters. -/
theorem invariantAtReset : Obligations.InvariantAtReset := State.resetWith_inv defaultConfig 0

end Sys2Proof.Machine
